-- ==== Sys2Proof/Word.lean ====
section
/-! DEFINITION. The value types that cross the block's boundary (spec/00_scope.md R9, R12;
spec/10_state.md R26 to R31): fixed-width words, payload lanes and engineering values.
Types only: every function on them stands in Decode.lean or under Machine/. -/

namespace Sys2Proof

/-- A payload byte, u8 (R9, R26); bit 0 is the least significant bit (R46). -/
abbrev Byte := BitVec 8

/-- A 16-bit word: raw value, Elster index or identifier, u16 (R9, R31). -/
abbrev Word16 := BitVec 16

/-- A member's `numericAddress`, u11 (R27). -/
abbrev Addr := BitVec 11

/-- A CAN identifier, u29 (R28, `90_conflicts.md` C11). -/
abbrev CanId := BitVec 29

/-- A message-kind nibble or a high nibble of an id byte, u4 (R61, R64). -/
abbrev Nibble := BitVec 4

/-- The eight byte lanes of a payload port (R26). Which lanes are present is told by a length
beside them (R40). -/
abbrev Lanes := Vector Byte 8

/-- An engineering value (R12): NaN or an exact rational. There are no infinities (D25) and one
NaN (R185). Exact arithmetic is the spec's reference semantics (D4; assumption log 8). -/
inductive Eng where
  /-- "a legitimate published state meaning 'unknown'" (R12). -/
  | nan
  /-- `Fin(q)` of R12. -/
  | fin (q : Rat)
  deriving DecidableEq, Repr, Inhabited

end Sys2Proof
end

