-- ==== Sys2Proof/Syntax.lean ====
section
/-! DEFINITION. The syntax of the block: encoding kinds (R29), message classes (R64), the
instructions (one constructor per row of spec/opcode_table.json), the words a host presents
(R71 for commands; R61, R62, R66, R69 for wire layouts) and the names of decoding errors. -/

namespace Sys2Proof

/-- RegisterEncoding: exactly the 19 kinds of R29, in the document's order. -/
inductive Kind where
  /-- DEFAULT: "default (unsigned raw)". -/
  | defaultRaw
  /-- DEC1: "one-decimal fixed-point". -/
  | dec1
  /-- DEC2: "two-decimal fixed-point". -/
  | dec2
  /-- DEC3: "three-decimal fixed-point". -/
  | dec3
  /-- BYTE: "byte". -/
  | byte
  /-- BOOL: "boolean". -/
  | bool
  /-- LE_BOOL: "byte-swapped boolean". -/
  | leBool
  /-- DOUBLE: "double-word (two consecutive registers, most-significant first)". -/
  | double
  /-- TRIPLE: "triple-word (three consecutive, most-significant first)". -/
  | triple
  /-- INV_DOUBLE: "inverse-double-word (least-significant first)". -/
  | invDouble
  /-- INV_TRIPLE: "inverse-triple-word (least-significant first)". -/
  | invTriple
  /-- LE16: "byte-swapped 16-bit". -/
  | le16
  /-- MODE: opaque kind "mode". -/
  | mode
  /-- TIME: opaque kind "time". -/
  | time
  /-- DATE: opaque kind "date". -/
  | date
  /-- DOMAIN: opaque kind "domain". -/
  | domain
  /-- DEVNUM: opaque kind "device-number". -/
  | devnum
  /-- ERRNUM: opaque kind "error-number". -/
  | errnum
  /-- DEVID: opaque kind "device-id". -/
  | devid
  deriving DecidableEq, Repr, Inhabited

/-- The class of a message kind (R64, R91; the names are the spec's, `90_conflicts.md` C1). -/
inductive KindClass where
  /-- WRITE, nibble 0: "write/response-to-read". -/
  | write
  /-- ACK, nibble 1: "unspecified acknowledgement", observed and not dispatched. -/
  | ack
  /-- CONFIRM, nibble 2: "equals/confirmation". -/
  | confirm
  /-- OTHER, nibbles 3 to 15: "not classified further". -/
  | other
  /-- NONE, the empty payload (D11; assumption log 20). -/
  | none
  deriving DecidableEq, Repr, Inhabited

/-- Which of the three identifiers of a member an id is: the field `t` of R66. Tag 11 is not
produced (spec/opcode_table.json, row ID16), so it has no constructor. -/
inductive IdTag where
  /-- `t` = 00, writeId (R110). -/
  | write
  /-- `t` = 01, readId (R111). -/
  | read
  /-- `t` = 10, responseId (R112). -/
  | response
  deriving DecidableEq, Repr, Inhabited

/-- The instructions: one constructor per row of spec/opcode_table.json. The 49 operations take
their operands from the request ports (R71), so their constructors have none. The five wire
layouts (R61, R62, R66, R69) carry the fields the table gives them (assumption log 15). -/
inductive Instr where
  /-- FDEC, decode a payload (R90). -/
  | fdec
  /-- FENC.RD, build a read request (R96). -/
  | fencRd
  /-- FENC.WR, build a write request (R97). -/
  | fencWr
  /-- A.WID, write identifier (R110). -/
  | aWid
  /-- A.RID, read identifier (R111). -/
  | aRid
  /-- A.RSP, response identifier (R112). -/
  | aRsp
  /-- A.RCV, receiver id of a payload (R113). -/
  | aRcv
  /-- V.ENC.DEFAULT (R131). -/
  | vEncDefaultRaw
  /-- V.ENC.DEC1 (R133). -/
  | vEncDec1
  /-- V.ENC.DEC2 (R135). -/
  | vEncDec2
  /-- V.ENC.DEC3 (R137). -/
  | vEncDec3
  /-- V.ENC.BYTE (R139). -/
  | vEncByte
  /-- V.ENC.BOOL (R141). -/
  | vEncBool
  /-- V.ENC.LE_BOOL (R143). -/
  | vEncLeBool
  /-- V.ENC.DOUBLE (R145). -/
  | vEncDouble
  /-- V.ENC.TRIPLE (R147). -/
  | vEncTriple
  /-- V.ENC.INV_DOUBLE (R149). -/
  | vEncInvDouble
  /-- V.ENC.INV_TRIPLE (R151). -/
  | vEncInvTriple
  /-- V.ENC.LE16 (R153). -/
  | vEncLe16
  /-- V.ENC.MODE (R155). -/
  | vEncMode
  /-- V.ENC.TIME (R157). -/
  | vEncTime
  /-- V.ENC.DATE (R159). -/
  | vEncDate
  /-- V.ENC.DOMAIN (R161). -/
  | vEncDomain
  /-- V.ENC.DEVNUM (R163). -/
  | vEncDevnum
  /-- V.ENC.ERRNUM (R165). -/
  | vEncErrnum
  /-- V.ENC.DEVID (R167). -/
  | vEncDevid
  /-- V.DEC.DEFAULT (R132). -/
  | vDecDefaultRaw
  /-- V.DEC.DEC1 (R134). -/
  | vDecDec1
  /-- V.DEC.DEC2 (R136). -/
  | vDecDec2
  /-- V.DEC.DEC3 (R138). -/
  | vDecDec3
  /-- V.DEC.BYTE (R140). -/
  | vDecByte
  /-- V.DEC.BOOL (R142). -/
  | vDecBool
  /-- V.DEC.LE_BOOL (R144). -/
  | vDecLeBool
  /-- V.DEC.DOUBLE (R146). -/
  | vDecDouble
  /-- V.DEC.TRIPLE (R148). -/
  | vDecTriple
  /-- V.DEC.INV_DOUBLE (R150). -/
  | vDecInvDouble
  /-- V.DEC.INV_TRIPLE (R152). -/
  | vDecInvTriple
  /-- V.DEC.LE16 (R154). -/
  | vDecLe16
  /-- V.DEC.MODE (R156). -/
  | vDecMode
  /-- V.DEC.TIME (R158). -/
  | vDecTime
  /-- V.DEC.DATE (R160). -/
  | vDecDate
  /-- V.DEC.DOMAIN (R162). -/
  | vDecDomain
  /-- V.DEC.DEVNUM (R164). -/
  | vDecDevnum
  /-- V.DEC.ERRNUM (R166). -/
  | vDecErrnum
  /-- V.DEC.DEVID (R168). -/
  | vDecDevid
  /-- V.COMB.DOUBLE (R171). -/
  | vCombDouble
  /-- V.COMB.TRIPLE (R172). -/
  | vCombTriple
  /-- V.COMB.INV_DOUBLE (R173). -/
  | vCombInvDouble
  /-- V.COMB.INV_TRIPLE (R174). -/
  | vCombInvTriple
  /-- FRAME.EXT, the extended form of full length (R61): `r`, `k`, `l`, index, value. -/
  | frameExt (idhHi knib : Nibble) (idl : Byte) (index value : Word16)
  /-- FRAME.SHORT, the short form (R62): `r`, `k`, `l`, the 8-bit index, and the bytes `B[3..]`
  that follow it (two of them for the row as printed; none to four in R62). -/
  | frameShort (idhHi knib : Nibble) (idl index : Byte) (rest : List Byte)
  /-- FRAME.RD, the read request of an address (R69). -/
  | frameRd (addr : Addr) (index : Word16)
  /-- FRAME.WR, the write request of an address (R69). -/
  | frameWr (addr : Addr) (index value : Word16)
  /-- ID16, an identifier of an address (R66). -/
  | id16 (addr : Addr) (tag : IdTag)
  deriving DecidableEq, Repr

/-- A word the host presents. The table's rows are of two sorts (R75): command words of 9 bits,
and wire layouts. A wire layout is presented as what it lays out (assumption log 16). -/
inductive Presented where
  /-- The command word `cmd` of R71: `op` in bits 8:5, `kind` in bits 4:0. -/
  | command (cmd : BitVec 9)
  /-- A payload in a form that is received (R61, R62). -/
  | received (payload : List Byte)
  /-- A payload in one of the two shapes the block builds (R69). -/
  | built (payload : List Byte)
  /-- A 16-bit identifier (R66). -/
  | identifier (id : Word16)
  deriving DecidableEq, Repr

/-- Why a presented word is no instruction. The first four are the reserved command words of
R235 (item U8). -/
inductive DecodeError where
  /-- `op` 0x0 or 0xB to 0xF (R76). -/
  | reservedSelect (op : BitVec 4)
  /-- Kind tag 19 to 31 on an operation that takes a kind (R73). -/
  | reservedKind (tag : BitVec 5)
  /-- Non-zero kind bits on an operation that takes no kind (R74). -/
  | kindOnKindless (tag : BitVec 5)
  /-- V.COMB with a kind that is not multi-word (R74, R177). -/
  | notCombinable (kind : Kind)
  /-- A wire word that has none of the table's layouts (assumption log 16). -/
  | noWireLayout
  /-- An identifier word with `t` = 11, "not produced" (table row ID16). -/
  | idTagNotProduced
  deriving DecidableEq, Repr

end Sys2Proof
end

