-- ==== Sys2Proof/Config.lean ====
section
/-! DEFINITION. What an implementation fixes (the parameters of spec/00_scope.md R8) and the
free values of the model. A parameter that R8 leaves OPEN, and every `any value` of the spec
(R234, U1, U2, U4), is an `opaque` constant: it has no body, so no proof can see it. The four
parameters with a decided value (R8, column "decision") are plain definitions. -/

namespace Sys2Proof

/-- BusMember (R27). Only `numericAddress` enters the block. -/
structure BusMember where
  numericAddress : Addr
  displayName : String
  deriving DecidableEq, Repr, Inhabited

/-- The configuration of one watcher (R191, R214): immutable after setup. -/
structure WatcherConfig where
  target : BusMember
  elsterIndex : Word16
  encoding : Kind
  /-- The polling interval; ordering in time is not modelled (assumption log 29). -/
  pollIntervalMs : Nat
  deriving DecidableEq, Repr, Inhabited

/-- What is set up before the first frame (R253): SENDER_ID, the watchers of the two registries
and the environment's time constants (R8, D19: positive integers). SENDER_ID is "u29, value below
0x800" (R8), so its 11 bits are what a deployment chooses. -/
structure Deployment where
  senderId : BitVec 11
  readOnly : List WatcherConfig
  writable : List WatcherConfig
  tickIntervalMs : ℕ+
  settleDelayMs : ℕ+
  deriving DecidableEq, Repr, Inhabited

/-- ROUND_TIES (R8): how `round` resolves an exact half. The alternative is the one N4 names. -/
inductive RoundTies where
  | halfAwayFromZero
  | halfToEven
  deriving DecidableEq, Repr

/-- TRUNC_DIR (R8): the direction of "truncate". The alternative is the one N5 names. -/
inductive TruncDir where
  | towardZero
  | floor
  deriving DecidableEq, Repr

/-- INVERSE_ORDER (R8): which reading of the inverse multi-word formulas holds (C3). -/
inductive InverseOrder where
  | indexOrderLswFirst
  | literal44
  deriving DecidableEq, Repr

/-- FLOAT_FORMAT (R8): "a binary floating-point format". Its numbers are `m * 2^e` with `|m|` below
`2^precision` and `e` in the `exponentSpan + 1` exponents from `minExponent` on, so no value of this
type is ill-formed. What a format represents and rounds to stands in Machine/ConcreteFloat.lean. -/
structure FloatFormat where
  precision : ℕ+
  minExponent : Int
  exponentSpan : Nat
  deriving DecidableEq, Repr, Inhabited

/-- The state of a watcher's machine (R196). -/
inductive Phase where
  | idle
  | awaitingWords
  deriving DecidableEq, Repr, Inhabited

/-- ROUND_TIES at the spec's decision D5 (assumption log 9). -/
def Config.roundTies : RoundTies := .halfAwayFromZero

/-- TRUNC_DIR at the spec's decision D6 (assumption log 10). -/
def Config.truncDir : TruncDir := .towardZero

/-- INVERSE_ORDER at the spec's resolution of C3, D20 (assumption log 12). -/
def Config.inverseOrder : InverseOrder := .indexOrderLswFirst

/-- FLOAT_FORMAT, OPEN in R8. The machine computes the reference semantics, exact rationals plus NaN
(D4); what an implementation over this format may answer instead is R121's and stands in
Machine/ConcreteFloat.lean (assumption log 8). -/
opaque Config.floatFormat : FloatFormat

/-- The deployment: SENDER_ID, the configured registries, TICK_INTERVAL_MS and SETTLE_DELAY_MS,
all OPEN in R8 (assumption log 22). -/
opaque Config.deployment : Deployment

/-- WELL_KNOWN, OPEN in R8; no rule of the block reads it (D10; assumption log 37). -/
opaque Config.wellKnown : List BusMember

/-! Free values. The argument is the draw counter of State, so that each draw is its own value. -/

/-- `any value` of V.ENC (R123, items U1, U2; assumption log 7). -/
opaque Config.anyEncoded : Nat → Word16

/-- A response port that no operation has named (R32, R250, item U4; assumption logs 3, 4). -/
opaque Config.anyKnib : Nat → Option Nibble

/-- As `anyKnib`, for `kclass`. -/
opaque Config.anyKclass : Nat → KindClass

/-- As `anyKnib`, for `confirm`. -/
opaque Config.anyConfirm : Nat → Bool

/-- As `anyKnib`, for `rindex`. -/
opaque Config.anyRindex : Nat → Word16

/-- As `anyKnib`, for `rvalue`. -/
opaque Config.anyRvalue : Nat → Word16

/-- As `anyKnib`, for `rcv`. -/
opaque Config.anyRcv : Nat → Word16

/-- As `anyKnib`, for `r16`. -/
opaque Config.anyR16 : Nat → Word16

/-- As `anyKnib`, for `reng`. -/
opaque Config.anyReng : Nat → Eng

/-- As `anyKnib`, for `canId`. -/
opaque Config.anyCanId : Nat → CanId

/-- As `anyKnib`, for the output lanes `O`. -/
opaque Config.anyLanes : Nat → Lanes

/-- As `anyKnib`, for `olen`. -/
opaque Config.anyOlen : Nat → BitVec 4

/-- The index a watcher asks for when `elsterIndex + k` passes 0xFFFF, a function of the two
operands; the source does not define it (R184 last row, N17; assumption log 23). -/
opaque Config.indexBeyond : Word16 → Nat → Word16

/-- The phase of a multi-word watcher after a matching frame: the document "names no event that
returns to Idle" (R196; assumption log 24). Arguments: draw, whether the watcher is Writable, its
position in its registry. -/
opaque Config.anyPhase : Nat → Bool → Nat → Phase

/-- Whether the writable registry is offered a frame before the read-only one (R193, R202, item
U16; assumption log 25). -/
opaque Config.writableFirst : Nat → Bool

end Sys2Proof
end

