-- ==== Sys2Proof/WellFormed.lean ====
section
/-! DEFINITION. Well-formedness of instructions: the side conditions of the wire layouts. The 49
operations have no operand in their syntax, so nothing to check there; what the spec requires of
the operand ports (`len` at most 8, R43) is a condition on the request, in Machine/Ops.lean. -/

namespace Sys2Proof

/-- R62: a short form has an index byte other than the marker 0xFA, and 3 to 7 bytes in all, so none
to four after the index. -/
def shortFormOk (index : Byte) (rest : List Byte) : Bool :=
  decide (index ≠ 0xFA) && decide (rest.length ≤ 4)

/-- The well-formedness check, one arm per constructor. -/
def Instr.wf : Instr → Bool
  | .fdec => true
  | .fencRd => true
  | .fencWr => true
  | .aWid => true
  | .aRid => true
  | .aRsp => true
  | .aRcv => true
  | .vEncDefaultRaw => true
  | .vEncDec1 => true
  | .vEncDec2 => true
  | .vEncDec3 => true
  | .vEncByte => true
  | .vEncBool => true
  | .vEncLeBool => true
  | .vEncDouble => true
  | .vEncTriple => true
  | .vEncInvDouble => true
  | .vEncInvTriple => true
  | .vEncLe16 => true
  | .vEncMode => true
  | .vEncTime => true
  | .vEncDate => true
  | .vEncDomain => true
  | .vEncDevnum => true
  | .vEncErrnum => true
  | .vEncDevid => true
  | .vDecDefaultRaw => true
  | .vDecDec1 => true
  | .vDecDec2 => true
  | .vDecDec3 => true
  | .vDecByte => true
  | .vDecBool => true
  | .vDecLeBool => true
  | .vDecDouble => true
  | .vDecTriple => true
  | .vDecInvDouble => true
  | .vDecInvTriple => true
  | .vDecLe16 => true
  | .vDecMode => true
  | .vDecTime => true
  | .vDecDate => true
  | .vDecDomain => true
  | .vDecDevnum => true
  | .vDecErrnum => true
  | .vDecDevid => true
  | .vCombDouble => true
  | .vCombTriple => true
  | .vCombInvDouble => true
  | .vCombInvTriple => true
  | .frameExt _ _ _ _ _ => true
  | .frameShort _ _ _ index rest => shortFormOk index rest
  | .frameRd _ _ => true
  | .frameWr _ _ _ => true
  | .id16 _ _ => true

/-- An instruction that some presented word stands for. -/
abbrev Instr.WellFormed (i : Instr) : Prop := i.wf = true

end Sys2Proof
end

