-- ==== Sys2Proof/Decode.lean ====
section
/-! DEFINITION. Decoding and encoding of presented words (spec/30_encoding.md): the byte-order
helpers, the kind tags (R72), the command words (R71 to R76), the wire layouts (R61, R62, R66,
R69), the encoder, and the numbering of spec/opcode_table.json. Decoding is total: a word that is
no instruction is rejected by name. -/

namespace Sys2Proof

/-! ### Byte order (R44, R11) -/

/-- The 16-bit field whose more significant byte is `hi` (R44): `hi * 256 + lo`. -/
def be16 (hi lo : Byte) : Word16 := hi ++ lo

/-- `hi8(v) = v[15:8]` (R11). -/
def hi8 (v : Word16) : Byte := v.extractLsb' 8 8

/-- `lo8(v) = v[7:0]` (R11). -/
def lo8 (v : Word16) : Byte := v.extractLsb' 0 8

/-- The high nibble of a byte. -/
def highNibble (b : Byte) : Nibble := b.extractLsb' 4 4

/-- The low nibble of a byte. -/
def lowNibble (b : Byte) : Nibble := b.extractLsb' 0 4

/-- The extended-index marker in `B[2]` (R60). -/
def marker : Byte := 0xFA

/-! ### Kind tags (R72) -/

/-- The tag of a kind, in the order of R29. -/
def Kind.tag : Kind → BitVec 5
  | .defaultRaw => 0
  | .dec1 => 1
  | .dec2 => 2
  | .dec3 => 3
  | .byte => 4
  | .bool => 5
  | .leBool => 6
  | .double => 7
  | .triple => 8
  | .invDouble => 9
  | .invTriple => 10
  | .le16 => 11
  | .mode => 12
  | .time => 13
  | .date => 14
  | .domain => 15
  | .devnum => 16
  | .errnum => 17
  | .devid => 18

/-- The kind of a tag; tags 19 to 31 name none (R73). -/
def kindOfTag (tag : BitVec 5) : Option Kind :=
  match tag.toNat with
  | 0 => some .defaultRaw
  | 1 => some .dec1
  | 2 => some .dec2
  | 3 => some .dec3
  | 4 => some .byte
  | 5 => some .bool
  | 6 => some .leBool
  | 7 => some .double
  | 8 => some .triple
  | 9 => some .invDouble
  | 10 => some .invTriple
  | 11 => some .le16
  | 12 => some .mode
  | 13 => some .time
  | 14 => some .date
  | 15 => some .domain
  | 16 => some .devnum
  | 17 => some .errnum
  | 18 => some .devid
  | _ => none

/-- The row V.ENC.k (R75). -/
def vEncOf : Kind → Instr
  | .defaultRaw => .vEncDefaultRaw
  | .dec1 => .vEncDec1
  | .dec2 => .vEncDec2
  | .dec3 => .vEncDec3
  | .byte => .vEncByte
  | .bool => .vEncBool
  | .leBool => .vEncLeBool
  | .double => .vEncDouble
  | .triple => .vEncTriple
  | .invDouble => .vEncInvDouble
  | .invTriple => .vEncInvTriple
  | .le16 => .vEncLe16
  | .mode => .vEncMode
  | .time => .vEncTime
  | .date => .vEncDate
  | .domain => .vEncDomain
  | .devnum => .vEncDevnum
  | .errnum => .vEncErrnum
  | .devid => .vEncDevid

/-- The row V.DEC.k (R75). -/
def vDecOf : Kind → Instr
  | .defaultRaw => .vDecDefaultRaw
  | .dec1 => .vDecDec1
  | .dec2 => .vDecDec2
  | .dec3 => .vDecDec3
  | .byte => .vDecByte
  | .bool => .vDecBool
  | .leBool => .vDecLeBool
  | .double => .vDecDouble
  | .triple => .vDecTriple
  | .invDouble => .vDecInvDouble
  | .invTriple => .vDecInvTriple
  | .le16 => .vDecLe16
  | .mode => .vDecMode
  | .time => .vDecTime
  | .date => .vDecDate
  | .domain => .vDecDomain
  | .devnum => .vDecDevnum
  | .errnum => .vDecErrnum
  | .devid => .vDecDevid

/-- The row V.COMB.k, for the multi-word kinds only (R74, R177). -/
def vCombOf : Kind → Option Instr
  | .defaultRaw => none
  | .dec1 => none
  | .dec2 => none
  | .dec3 => none
  | .byte => none
  | .bool => none
  | .leBool => none
  | .double => some .vCombDouble
  | .triple => some .vCombTriple
  | .invDouble => some .vCombInvDouble
  | .invTriple => some .vCombInvTriple
  | .le16 => none
  | .mode => none
  | .time => none
  | .date => none
  | .domain => none
  | .devnum => none
  | .errnum => none
  | .devid => none

/-! ### Command words (R71 to R76) -/

/-- An operation without a kind requires `kind` = 0 (R74). -/
def kindless (tag : BitVec 5) (i : Instr) : Except DecodeError Instr :=
  if tag = 0 then .ok i else .error (.kindOnKindless tag)

/-- An operation with a kind refuses the reserved tags (R73). -/
def withKind (tag : BitVec 5) (f : Kind → Except DecodeError Instr) : Except DecodeError Instr :=
  match kindOfTag tag with
  | some k => f k
  | none => .error (.reservedKind tag)

/-- V.COMB admits tags 7 to 10 only (R74, R177). -/
def combine? (k : Kind) : Except DecodeError Instr :=
  match vCombOf k with
  | some i => .ok i
  | none => .error (.notCombinable k)

/-- The operation of a command word (R75): `op` is bits 8:5, `kind` bits 4:0 (R71). -/
def decodeCommand (cmd : BitVec 9) : Except DecodeError Instr :=
  let op : BitVec 4 := cmd.extractLsb' 5 4
  let tag : BitVec 5 := cmd.extractLsb' 0 5
  match op.toNat with
  | 1 => kindless tag .fdec
  | 2 => kindless tag .fencRd
  | 3 => kindless tag .fencWr
  | 4 => kindless tag .aWid
  | 5 => kindless tag .aRid
  | 6 => kindless tag .aRsp
  | 7 => kindless tag .aRcv
  | 8 => withKind tag fun k => .ok (vEncOf k)
  | 9 => withKind tag fun k => .ok (vDecOf k)
  | 10 => withKind tag combine?
  | _ => .error (.reservedSelect op)

/-! ### Wire layouts (R61, R62, R66, R69) -/

/-- A payload in a received form: the extended form of full length (R61, 7 bytes, `B[2]` = 0xFA)
or the short form (R62, 3 to 7 bytes, `B[2]` other than 0xFA). -/
def decodeReceived : List Byte → Except DecodeError Instr
  | b0 :: b1 :: b2 :: rest =>
    if b2 = marker then
      match rest with
      | [b3, b4, b5, b6] =>
        .ok (.frameExt (highNibble b0) (lowNibble b0) b1 (be16 b3 b4) (be16 b5 b6))
      | _ => .error .noWireLayout
    else if rest.length ≤ 4 then .ok (.frameShort (highNibble b0) (lowNibble b0) b1 b2 rest)
    else .error .noWireLayout
  | _ => .error .noWireLayout

/-- The address of an id: `a[10:6]` in bits 15:11 and `a[5:0]` in bits 5:0 (R66). -/
def idAddr (id : Word16) : Addr := id.extractLsb' 11 5 ++ id.extractLsb' 0 6

/-- Bit 10 and bits 7:6 of an id are 0 (R66). -/
def idFixedOk (id : Word16) : Bool := id.extractLsb' 10 1 == 0 && id.extractLsb' 6 2 == 0

/-- The identifier layout (R66): `aaaaa0tt00aaaaaa`. -/
def decodeIdentifier (id : Word16) : Except DecodeError Instr :=
  if idFixedOk id then
    match (id.extractLsb' 8 2).toNat with
    | 0 => .ok (.id16 (idAddr id) .write)
    | 1 => .ok (.id16 (idAddr id) .read)
    | 2 => .ok (.id16 (idAddr id) .response)
    | _ => .error .idTagNotProduced
  else .error .noWireLayout

/-- A payload in one of the two built shapes (R69): a read request has a read-id and value bytes
0x00, 0x00; a write request has a write-id. -/
def decodeBuilt : List Byte → Except DecodeError Instr
  | [b0, b1, b2, b3, b4, b5, b6] =>
    if b2 = marker then
      match decodeIdentifier (be16 b0 b1) with
      | .ok (.id16 a .read) =>
        if be16 b5 b6 = 0 then .ok (.frameRd a (be16 b3 b4)) else .error .noWireLayout
      | .ok (.id16 a .write) => .ok (.frameWr a (be16 b3 b4) (be16 b5 b6))
      | _ => .error .noWireLayout
    else .error .noWireLayout
  | _ => .error .noWireLayout

/-- The decoder, total on whatever is presented. -/
def decode : Presented → Except DecodeError Instr
  | .command cmd => decodeCommand cmd
  | .received payload => decodeReceived payload
  | .built payload => decodeBuilt payload
  | .identifier id => decodeIdentifier id

/-! ### The encoder -/

/-- The field `t` of an id (R66). -/
def IdTag.bits : IdTag → BitVec 2
  | .write => 0
  | .read => 1
  | .response => 2

/-- The bits of an id, by the layout of R66. -/
def idLayout (a : Addr) (t : IdTag) : Word16 :=
  a.extractLsb' 6 5 ++ (0#1 ++ (t.bits ++ (0#2 ++ a.extractLsb' 0 6)))

/-- The command word of an operation (R75): `op` over `kind`. -/
def commandWord (op : BitVec 4) (tag : BitVec 5) : Presented := .command (op ++ tag)

/-- The bytes of the extended form of full length (R61). -/
def extendedBytes (id index value : Word16) : List Byte :=
  [hi8 id, lo8 id, marker, hi8 index, lo8 index, hi8 value, lo8 value]

/-- The bytes of a received extended frame from the fields of R61. -/
def frameExtBytes (idhHi knib : Nibble) (idl : Byte) (index value : Word16) : List Byte :=
  extendedBytes (be16 (idhHi ++ knib) idl) index value

/-- The bytes of a short frame from the fields of R62. -/
def frameShortBytes (idhHi knib : Nibble) (idl index : Byte) (rest : List Byte) : List Byte :=
  (idhHi ++ knib) :: idl :: index :: rest

/-- The word of an instruction, written from the same tables. -/
def encode : Instr → Presented
  | .fdec => commandWord 1 0
  | .fencRd => commandWord 2 0
  | .fencWr => commandWord 3 0
  | .aWid => commandWord 4 0
  | .aRid => commandWord 5 0
  | .aRsp => commandWord 6 0
  | .aRcv => commandWord 7 0
  | .vEncDefaultRaw => commandWord 8 (Kind.tag .defaultRaw)
  | .vEncDec1 => commandWord 8 (Kind.tag .dec1)
  | .vEncDec2 => commandWord 8 (Kind.tag .dec2)
  | .vEncDec3 => commandWord 8 (Kind.tag .dec3)
  | .vEncByte => commandWord 8 (Kind.tag .byte)
  | .vEncBool => commandWord 8 (Kind.tag .bool)
  | .vEncLeBool => commandWord 8 (Kind.tag .leBool)
  | .vEncDouble => commandWord 8 (Kind.tag .double)
  | .vEncTriple => commandWord 8 (Kind.tag .triple)
  | .vEncInvDouble => commandWord 8 (Kind.tag .invDouble)
  | .vEncInvTriple => commandWord 8 (Kind.tag .invTriple)
  | .vEncLe16 => commandWord 8 (Kind.tag .le16)
  | .vEncMode => commandWord 8 (Kind.tag .mode)
  | .vEncTime => commandWord 8 (Kind.tag .time)
  | .vEncDate => commandWord 8 (Kind.tag .date)
  | .vEncDomain => commandWord 8 (Kind.tag .domain)
  | .vEncDevnum => commandWord 8 (Kind.tag .devnum)
  | .vEncErrnum => commandWord 8 (Kind.tag .errnum)
  | .vEncDevid => commandWord 8 (Kind.tag .devid)
  | .vDecDefaultRaw => commandWord 9 (Kind.tag .defaultRaw)
  | .vDecDec1 => commandWord 9 (Kind.tag .dec1)
  | .vDecDec2 => commandWord 9 (Kind.tag .dec2)
  | .vDecDec3 => commandWord 9 (Kind.tag .dec3)
  | .vDecByte => commandWord 9 (Kind.tag .byte)
  | .vDecBool => commandWord 9 (Kind.tag .bool)
  | .vDecLeBool => commandWord 9 (Kind.tag .leBool)
  | .vDecDouble => commandWord 9 (Kind.tag .double)
  | .vDecTriple => commandWord 9 (Kind.tag .triple)
  | .vDecInvDouble => commandWord 9 (Kind.tag .invDouble)
  | .vDecInvTriple => commandWord 9 (Kind.tag .invTriple)
  | .vDecLe16 => commandWord 9 (Kind.tag .le16)
  | .vDecMode => commandWord 9 (Kind.tag .mode)
  | .vDecTime => commandWord 9 (Kind.tag .time)
  | .vDecDate => commandWord 9 (Kind.tag .date)
  | .vDecDomain => commandWord 9 (Kind.tag .domain)
  | .vDecDevnum => commandWord 9 (Kind.tag .devnum)
  | .vDecErrnum => commandWord 9 (Kind.tag .errnum)
  | .vDecDevid => commandWord 9 (Kind.tag .devid)
  | .vCombDouble => commandWord 10 (Kind.tag .double)
  | .vCombTriple => commandWord 10 (Kind.tag .triple)
  | .vCombInvDouble => commandWord 10 (Kind.tag .invDouble)
  | .vCombInvTriple => commandWord 10 (Kind.tag .invTriple)
  | .frameExt r k l index value => .received (frameExtBytes r k l index value)
  | .frameShort r k l index rest => .received (frameShortBytes r k l index rest)
  | .frameRd a index => .built (extendedBytes (idLayout a .read) index 0)
  | .frameWr a index value => .built (extendedBytes (idLayout a .write) index value)
  | .id16 a t => .identifier (idLayout a t)

/-! ### The numbering of spec/opcode_table.json (assumption log 16) -/

/-- The byte of a number at place `i`, counted from the least significant. -/
def byteOfNat (w i : Nat) : Byte := BitVec.ofNat 8 (w / 256 ^ i)

/-- The `n` bytes of a wire word as a payload: the table's most significant bits are `B[0]`
("bit 55 = B[0] bit 7", rows FRAME.EXT, R61). -/
def payloadOfNat (w : Nat) : Nat → List Byte
  | 0 => []
  | n + 1 => byteOfNat w n :: payloadOfNat w n

/-- Whether a decoding names an instruction. -/
def decodes (p : Presented) : Bool :=
  match decode p with
  | .ok _ => true
  | .error _ => false

/-- What a word of the table is presented as. A table word does not say whether it is a command or
a wire word, nor in which direction a wire word travels, and the rows overlap; the most specific
reading that decodes is taken: up to 16 bits, a command word, else an identifier, else (a reserved
word below 0x200) the command word itself; above 16 bits, a built shape, else a received form. -/
def presentTableWord (nbits w : Nat) : Presented :=
  if nbits ≤ 16 then
    if w < 512 ∧ decodes (.command (BitVec.ofNat 9 w)) = true then .command (BitVec.ofNat 9 w)
    else if w < 512 ∧ decodes (.identifier (BitVec.ofNat 16 w)) = false then
      .command (BitVec.ofNat 9 w)
    else .identifier (BitVec.ofNat 16 w)
  else
    let payload := payloadOfNat w (nbits / 8)
    if decodes (.built payload) = true then .built payload else .received payload

/-- The instruction the decoder reads from a word of the table. -/
def decodeTableWord (nbits w : Nat) : Option Instr :=
  match decode (presentTableWord nbits w) with
  | .ok i => some i
  | .error _ => none

end Sys2Proof
end

