-- ==== Sys2Proof/Machine/State.lean ====
section
/-! DEFINITION. The state of the machine: the request being served and the response ports of the
block (spec/10_state.md R31, R32), the environment around it
(spec/48_environment_collaborators.md R190 to R194), what the host presents next, and the reasons a
step can stop. The block itself holds no state (R20); everything here is a port, the environment,
or the model's own bookkeeping. -/

namespace Sys2Proof.Machine

/-! ### The block's ports -/

/-- One request (R31): the presented word and the operand ports. The ports `op` and `kind` are the
two fields of the command word (R71). -/
structure Request where
  word : Presented
  addr : Addr
  id16 : Word16
  sender : CanId
  index : Word16
  raw : Word16
  eng : Eng
  w0 : Eng
  w1 : Eng
  w2 : Eng
  /-- The eight input lanes; lane i is present when i < `len` (R40). -/
  B : Lanes
  /-- The payload length, legal values 0 to 8 (R31, R43). -/
  len : BitVec 4
  deriving DecidableEq, Repr

/-- The response ports (R32). -/
structure Response where
  knib : Option Nibble
  kclass : KindClass
  confirm : Bool
  rindex : Word16
  rvalue : Word16
  rcv : Word16
  r16 : Word16
  reng : Eng
  canId : CanId
  O : Lanes
  olen : BitVec 4
  deriving DecidableEq, Repr

/-- The six results of FDEC (R90). -/
structure Decoded where
  knib : Option Nibble
  kclass : KindClass
  confirm : Bool
  rindex : Word16
  rvalue : Word16
  rcv : Word16
  deriving DecidableEq, Repr

/-- The frame that FENC.RD, FENC.WR, BUILD.RD and BUILD.WR give (R96, R97, R180, R181). -/
structure BuiltFrame where
  canId : CanId
  O : Lanes
  olen : BitVec 4
  deriving DecidableEq, Repr

/-! ### The environment (outside the block, R5, R190) -/

/-- A CanFrame as the environment carries it (R28): an identifier and the bytes of its payload. -/
structure CanFrame where
  canId : CanId
  payload : List Byte
  deriving DecidableEq, Repr

/-- `partialValues`: "up to 3 floating-point slots" (R191). -/
structure Slots where
  s0 : Eng
  s1 : Eng
  s2 : Eng
  deriving DecidableEq, Repr

/-- A RegisterWatcher (R191). `phase` is the state of R196, `failed` the permanent mark of R207. -/
structure Watcher where
  config : WatcherConfig
  slots : Slots
  lastPublished : Option Eng
  phase : Phase
  failed : Bool
  deriving DecidableEq, Repr

/-- The two registries of the Dispatcher (R193), one per watcher variant (R195). -/
inductive Registry where
  | readOnly
  | writable
  deriving DecidableEq, Repr

/-- A watcher by its registry and its place in insertion order (R193). -/
structure WatcherRef where
  registry : Registry
  position : Nat
  deriving DecidableEq, Repr

/-- A pending one-shot timer (R206, R211): `after(delayMs, beginReadCycle)` of a watcher. -/
structure OneShot where
  delayMs : Nat
  watcher : WatcherRef
  deriving DecidableEq, Repr

/-- One call of the transport's `sendFrame(canId, extended, payload)` and its result (R210):
`accepted` is false for a TransportError, which is surfaced to the caller and not retried (R216). -/
structure Sent where
  frame : CanFrame
  extended : Bool
  accepted : Bool
  deriving DecidableEq, Repr

/-- One call of `publish(value)` by a watcher (R212). -/
structure Publication where
  watcher : WatcherRef
  value : Eng
  deriving DecidableEq, Repr

/-- The fields of one log line (R213); the text is not modelled (U18). `value` is none where the
line shows the placeholder (nibble 1). -/
structure LogEntry where
  sender : CanId
  payload : List Byte
  index : Word16
  value : Option Int
  receiver : Word16
  deriving DecidableEq, Repr

/-- The environment (R190 to R194). `sent`, `published` and `logged` are histories of what was
handed to the collaborators, oldest first (assumption logs 28, 38). -/
structure Env where
  senderId : CanId
  tickIntervalMs : Nat
  settleDelayMs : Nat
  readOnly : List Watcher
  writable : List Watcher
  queue : List CanFrame
  timers : List OneShot
  sent : List Sent
  published : List Publication
  logged : List LogEntry
  deriving DecidableEq, Repr

/-- What the host does next (R31 and the host table R219). -/
inductive Input where
  /-- A request is presented to the block. -/
  | request (r : Request)
  /-- The transport calls `onFrameReceived` (R210). -/
  | receive (canId : CanId) (extended rtr : Bool) (payload : List Byte)
  /-- The scheduler's queue-drain tick; whether the transport takes a frame handed to it (R208). -/
  | tick (accepted : Bool)
  /-- The one-shot timer at this place fires (R211). -/
  | timerFires (place : Nat)
  /-- The one-shot timer at this place is cancelled, "cancellable-in-principle" (R206). -/
  | timerCancelled (place : Nat)
  /-- `beginReadCycle()` of a watcher, by the polling primitive or the host (R199, R219). -/
  | poll (watcher : WatcherRef)
  /-- `control(value)` of the Writable watcher at this place; whether the transport takes the
  write frame (R206). -/
  | control (position : Nat) (value : Rat) (accepted : Bool)
  deriving DecidableEq, Repr

/-! ### Why a step can stop -/

/-- The faults: none. "The block raises nothing" (R230); there is no trap (R238) and "A model of the
block has no exception type" (R230). Safe: a closed type without constructors, so no step ends in a
fault. -/
inductive Fault where
  deriving DecidableEq, Repr

/-- The refusals: requests that "correspond to nothing in the document" (R235). -/
inductive Refusal where
  /-- Raised by `exec` for an instruction without a meaning yet; no arm raises it. Safe. -/
  | notModelled (mnemonic : String)
  /-- Raised by `step` when the presented word is no instruction (R73, R74, R76, R177, R235 item U8;
  for wire words assumption log 16). Safe: the spec refuses these requests. -/
  | reserved (e : DecodeError)
  /-- Raised by FDEC, A.RCV, the received wire layouts and the delivery of a frame when the payload
  is longer than 8 bytes (R43, R235 item U7, D12). Safe: the spec refuses these requests. -/
  | payloadLength (len : Nat)
  deriving DecidableEq, Repr

/-! ### The state -/

/-- The state. `draws` counts the free values drawn so far (assumption log 6); `inputs` is what the
host presents from now on, in order (assumption log 1). -/
structure State where
  req : Request
  resp : Response
  env : Env
  inputs : List Input
  draws : Nat
  deriving DecidableEq, Repr

/-! ### Reset -/

/-- The operand ports before the first request (assumption log 5: DESIGN CHOICE, the host drives
them): all zero, and the reserved command word 0x000. -/
def Request.idle : Request where
  word := .command 0
  addr := 0
  id16 := 0
  sender := 0
  index := 0
  raw := 0
  eng := .fin 0
  w0 := .fin 0
  w1 := .fin 0
  w2 := .fin 0
  B := Vector.replicate 8 0
  len := 0

/-- Response ports that nothing has named: every one `any value` (R32, R34, R250), drawn at `n`. -/
def Response.unspecified (n : Nat) : Response where
  knib := Config.anyKnib n
  kclass := Config.anyKclass n
  confirm := Config.anyConfirm n
  rindex := Config.anyRindex n
  rvalue := Config.anyRvalue n
  rcv := Config.anyRcv n
  r16 := Config.anyR16 n
  reng := Config.anyReng n
  canId := Config.anyCanId n
  O := Config.anyLanes n
  olen := Config.anyOlen n

/-- Whether a kind is multi-word: the four kinds of R207. -/
def isMultiWordKind : Kind → Bool
  | .double | .triple | .invDouble | .invTriple => true
  | .defaultRaw | .dec1 | .dec2 | .dec3 | .byte | .bool | .leBool | .le16 | .mode | .time | .date
  | .domain | .devnum | .errnum | .devid => false

/-- A watcher at start (R194): slots NaN, nothing published, Idle; a multi-word kind on a Writable
watcher is a setup-time failure that marks it for good (R207). -/
def Watcher.start (registry : Registry) (c : WatcherConfig) : Watcher where
  config := c
  slots := ⟨.nan, .nan, .nan⟩
  lastPublished := none
  phase := .idle
  failed := decide (registry = .writable) && isMultiWordKind c.encoding

/-- The environment at start (R194): "queue empty", the registries hold the configured watchers. -/
def Env.start (d : Deployment) : Env where
  senderId := d.senderId.zeroExtend 29
  tickIntervalMs := d.tickIntervalMs
  settleDelayMs := d.settleDelayMs
  readOnly := d.readOnly.map (Watcher.start .readOnly)
  writable := d.writable.map (Watcher.start .writable)
  queue := []
  timers := []
  sent := []
  published := []
  logged := []

/-- The machine right after reset (R34, R194, R250): the block has nothing to reset, its response
ports are unspecified, the environment is at its start values, and nothing is presented yet. -/
def State.reset : State where
  req := Request.idle
  resp := Response.unspecified 0
  env := Env.start Config.deployment
  inputs := []
  draws := 1

end Sys2Proof.Machine
end

