-- ==== Sys2Proof/Machine/Operands.lean ====
section
/-! DEFINITION. Operand helpers: the 16-bit helpers of R11, the rounding helpers of R13 with the
parameters ROUND_TIES and TRUNC_DIR of R8, the attributes of a kind (R29, R30), the sentinels (R14)
and the payload a request presents (R40 to R43). -/

namespace Sys2Proof.Machine

/-! ### Sentinels (R14) -/

/-- `NO_INDEX`: no valid Elster index. -/
def noIndex : Word16 := 0xFFFF

/-- `NO_RECEIVER`: no resolvable receiver. -/
def noReceiver : Word16 := 0xFFFF

/-- `NO_VALUE`: no valid value, "NaN on the wire". -/
def noValue : Word16 := 0x8000

/-! ### 16-bit helpers (R11) -/

/-- `swap16(v) = lo8(v) * 256 + hi8(v)`. -/
def swap16 (v : Word16) : Word16 := be16 (lo8 v) (hi8 v)

/-- `s16(v)`: `v` below 0x8000, `v - 65536` otherwise. -/
def s16 (v : Word16) : Int := if v.toNat < 0x8000 then (v.toNat : Int) else (v.toNat : Int) - 65536

/-- `u16_of_int(z) = z mod 65536`, the non-negative residue. -/
def u16OfInt (z : Int) : Word16 := BitVec.ofNat 16 (z % 65536).toNat

/-! ### Rounding helpers (R13) -/

/-- `round_hafz(q)`: nearest integer, an exact half away from zero (D5). -/
def roundHafz (q : Rat) : Int := if 0 ≤ q then (q + 1 / 2).floor else -(-q + 1 / 2).floor

/-- The alternative N4 names: nearest integer, an exact half to the even neighbour. -/
def roundHalfEven (q : Rat) : Int :=
  let up := (q + 1 / 2).floor
  if ((up : Rat) = q + 1 / 2) ∧ up % 2 = 1 then up - 1 else up

/-- `round` under ROUND_TIES (R8). -/
def roundBy : RoundTies → Rat → Int
  | .halfAwayFromZero, q => roundHafz q
  | .halfToEven, q => roundHalfEven q

/-- `trunc(q)`: the integer part toward zero (D6). -/
def truncToZero (q : Rat) : Int := if 0 ≤ q then q.floor else -(-q).floor

/-- "truncate to integer" under TRUNC_DIR (R8). -/
def truncBy : TruncDir → Rat → Int
  | .towardZero, q => truncToZero q
  | .floor, q => q.floor

/-! ### Attributes of a kind (R29, R30) -/

/-- `scale(kind)`: the decimal scale of R29 (0 where the document gives none, D21). -/
def scale : Kind → Nat
  | .defaultRaw => 0
  | .dec1 => 1
  | .dec2 => 2
  | .dec3 => 3
  | .byte => 0
  | .bool => 0
  | .leBool => 0
  | .double => 0
  | .triple => 0
  | .invDouble => 0
  | .invTriple => 0
  | .le16 => 0
  | .mode => 0
  | .time => 0
  | .date => 0
  | .domain => 0
  | .devnum => 0
  | .errnum => 0
  | .devid => 0

/-- `wordCount(kind)`: the word count of R29. -/
def wordCount : Kind → Nat
  | .defaultRaw => 1
  | .dec1 => 1
  | .dec2 => 1
  | .dec3 => 1
  | .byte => 1
  | .bool => 1
  | .leBool => 1
  | .double => 2
  | .triple => 3
  | .invDouble => 2
  | .invTriple => 3
  | .le16 => 1
  | .mode => 1
  | .time => 1
  | .date => 1
  | .domain => 1
  | .devnum => 1
  | .errnum => 1
  | .devid => 1

/-! ### The presented payload (R40 to R43) -/

/-- The present bytes of the input lanes: lane i for i < `len` (R40); absent lanes do not exist
(R42). -/
def Request.bytes (r : Request) : List Byte := r.B.toList.take r.len.toNat

/-- `B[i]`; every use stands behind a test that i is below the length (R41). -/
def byteAt (p : List Byte) (i : Nat) : Byte := p.getD i 0

/-- `MemRead(i, 2)`: the big-endian field at i (R10, R44). -/
def fieldAt (p : List Byte) (i : Nat) : Word16 := be16 (byteAt p i) (byteAt p (i + 1))

end Sys2Proof.Machine
end

