-- ==== Sys2Proof/Machine/Flags.lean ====
section
/-! DEFINITION. The block has no status flags and no condition codes (R22). What stands in their
place: the three derived one-bit indications of R22, pure functions of a result, never stored. -/

namespace Sys2Proof.Machine

/-- `index_valid = (index != 0xFFFF)` (R22, D13). -/
def indexValid (index : Word16) : Bool := index != noIndex

/-- `value_valid = (value != 0x8000)` (R22, D13). -/
def valueValid (value : Word16) : Bool := value != noValue

/-- `rcv_valid = (rcv != 0xFFFF)` (R22, D13). -/
def rcvValid (rcv : Word16) : Bool := rcv != noReceiver

/-- `isNaN(e)` (R12). -/
def isNaN : Eng → Bool
  | .nan => true
  | .fin _ => false

/-- `isFinite(e)` (R12): "in `Eng` every value is one or the other". -/
def isFinite : Eng → Bool
  | .nan => false
  | .fin _ => true

end Sys2Proof.Machine
end

