-- ==== Sys2Proof/Machine/Ops.lean ====
section
/-! DEFINITION. The shared operations of the block: answering a request (R32) and the output lanes
(R10, R40). There is NO operation that takes an exception and none that returns from one: the block
raises nothing (R230), has no trap entry (R238) and no trap return (R239). -/

namespace Sys2Proof.Machine

/-- What a meaning answers. -/
abbrev Result := Host.Outcome State Fault Refusal

/-- The state after one response (R32): the ports the operation names are written by `f`, every other
port is unspecified in this response (item U4), a fresh draw of the free values. -/
def State.answered (s : State) (f : Response → Response) : State :=
  { s with resp := f (Response.unspecified s.draws), draws := s.draws + 1 }

/-- The state after the environment moved: the block's ports stay as they are (assumption log 21),
and one draw of the free values is used up. -/
def State.moved (s : State) (e : Env) : State := { s with env := e, draws := s.draws + 1 }

/-- The state with a request latched on the ports (R31). -/
def State.latched (s : State) (r : Request) : State := { s with req := r }

/-- The state with what the host presents from now on. -/
def State.awaiting (s : State) (rest : List Input) : State := { s with inputs := rest }

/-- One response (R32). -/
def respond (f : Response → Response) (s : State) : Result := .next (s.answered f)

/-- A response on `r16` (A.WID, A.RID, A.RSP, V.ENC, R32). -/
def respondR16 (v : Word16) (s : State) : Result := respond (fun r => { r with r16 := v }) s

/-- A response on `reng` (V.DEC, V.COMB, R32). -/
def respondEng (e : Eng) (s : State) : Result := respond (fun r => { r with reng := e }) s

/-- A response on `rcv` (A.RCV, R32). -/
def respondRcv (v : Word16) (s : State) : Result := respond (fun r => { r with rcv := v }) s

/-- A response on the ports of FDEC (R32, R90). -/
def respondDecoded (d : Decoded) (s : State) : Result :=
  respond (fun r => { r with
    knib := d.knib, kclass := d.kclass, confirm := d.confirm,
    rindex := d.rindex, rvalue := d.rvalue, rcv := d.rcv }) s

/-- A response on the ports of a built frame (R32, R96, R97). -/
def respondFrame (f : BuiltFrame) (s : State) : Result :=
  respond (fun r => { r with canId := f.canId, O := f.O, olen := f.olen }) s

/-- An encoded value, or where the spec gives none, the `any value` of this draw (R123, R234). -/
def encodedOr (draw : Nat) : Option Word16 → Word16
  | some v => v
  | none => Config.anyEncoded draw

/-- A response on `r16` that may be `any value` (V.ENC, R123). -/
def respondEncoded (v : Option Word16) (s : State) : Result := respondR16 (encodedOr s.draws v) s

/-- The payload of a request, refused when `len` is above 8 "before anything is computed" (R43,
R235, R237). -/
def withPayload (s : State) (f : List Byte → Result) : Result :=
  if s.req.len.toNat ≤ 8 then f s.req.bytes else .refused (.payloadLength s.req.len.toNat)

/-- A payload given as bytes, refused when longer than 8 (R43). -/
def withBytes (p : List Byte) (f : List Byte → Result) : Result :=
  if p.length ≤ 8 then f p else .refused (.payloadLength p.length)

/-- `MemWrite(i, 1, v)` on the output lanes (R10): `O[i] <- v`; the lanes are 0 to 7. -/
def writeLane (O : Lanes) (i : Nat) (v : Byte) : Lanes := O.setIfInBounds i v

/-- `MemWrite(i, 2, v)` on the output lanes (R10): big-endian (R44). -/
def writeField (O : Lanes) (i : Nat) (v : Word16) : Lanes :=
  writeLane (writeLane O i (hi8 v)) (i + 1) (lo8 v)

/-- The bytes of a built frame: its first `olen` lanes (R40). -/
def BuiltFrame.bytes (f : BuiltFrame) : List Byte := f.O.toList.take f.olen.toNat

/-- A built frame as the transport takes it (R28, R98). -/
def BuiltFrame.toFrame (f : BuiltFrame) : CanFrame := ⟨f.canId, f.bytes⟩

end Sys2Proof.Machine
end

