-- ==== Sys2Proof/Machine/AddressScheme.lean ====
section
/-! DEFINITION. The AddressScheme (spec/41_address_scheme.md): A.WID, A.RID, A.RSP, A.RCV. "These
formulas must be reproduced bit-exact" (R114). -/

namespace Sys2Proof.Machine

/-- The formula of R110. -/
def writeId (addr : Addr) : Word16 :=
  let a : Word16 := addr.zeroExtend 16
  ((a &&& 0x7C0) <<< 5) ||| (a &&& 0x3F)

/-- The formula of R111, `writeId | 0x100`. -/
def readId (addr : Addr) : Word16 := writeId addr ||| 0x100

/-- The formula of R112, `writeId | 0x200`. -/
def responseId (addr : Addr) : Word16 := writeId addr ||| 0x200

/-- The identifier of an address by its tag (R66). -/
def idOf : IdTag → Addr → Word16
  | .write, a => writeId a
  | .read, a => readId a
  | .response, a => responseId a

/-- The passive marker in `B[1]` (R65). -/
def passiveMarker : Byte := 0x79

/-- `receiver_of` (R113): the length test first, then the marker test, then the formula. -/
def receiverOf (p : List Byte) : Word16 :=
  if p.length < 2 then noReceiver
  else if byteAt p 1 = passiveMarker then noReceiver
  else (((byteAt p 0).zeroExtend 16 &&& 0xF0) <<< 3) + ((byteAt p 1).zeroExtend 16 &&& 0x7F)

/-- A.WID (R110). -/
def execAWid (s : State) : Result := respondR16 (writeId s.req.addr) s

/-- A.RID (R111). -/
def execARid (s : State) : Result := respondR16 (readId s.req.addr) s

/-- A.RSP (R112). -/
def execARsp (s : State) : Result := respondR16 (responseId s.req.addr) s

/-- A.RCV (R113), refused when `len` is above 8 (R235). -/
def execARcv (s : State) : Result := withPayload s fun p => respondRcv (receiverOf p) s

end Sys2Proof.Machine
end

