-- ==== Sys2Proof/Machine/FrameCodec.lean ====
section
/-! DEFINITION. The FrameCodec (spec/40_frame_codec.md): FDEC, FENC.RD, FENC.WR. -/

namespace Sys2Proof.Machine

/-- The class of a kind nibble (R64, R91). -/
def classOf (k : Nibble) : KindClass :=
  if k = 0 then .write else if k = 1 then .ack else if k = 2 then .confirm else .other

/-- The nibble of `kind_of` (R91): `B[0] & 0x0F`, none for the empty payload (D11). -/
def nibbleOf (p : List Byte) : Option Nibble :=
  if p.length = 0 then none else some (lowNibble (byteAt p 0))

/-- The class of `kind_of` (R91). -/
def kindClassOf (p : List Byte) : KindClass :=
  if p.length = 0 then .none else classOf (lowNibble (byteAt p 0))

/-- `index_of` (R92): outer length test, marker test, inner length test, in that order (R237). -/
def indexOf (p : List Byte) : Word16 :=
  if p.length < 3 ∨ 7 < p.length then noIndex
  else if byteAt p 2 = marker then (if 5 ≤ p.length then fieldAt p 3 else noIndex)
  else (byteAt p 2).zeroExtend 16

/-- `value_of` (R93). -/
def valueOf (p : List Byte) : Word16 :=
  if p.length < 5 ∨ 7 < p.length then noValue
  else if byteAt p 2 = marker then (if p.length = 7 then fieldAt p 5 else noValue)
  else fieldAt p 3

/-- `confirm_of` (R94). -/
def confirmOf (p : List Byte) : Bool :=
  decide (1 ≤ p.length) && decide (lowNibble (byteAt p 0) = 2)

/-- FDEC of a payload (R90): five results computed independently of each other (R95). -/
def decodeFrame (p : List Byte) : Decoded where
  knib := nibbleOf p
  kclass := kindClassOf p
  confirm := confirmOf p
  rindex := indexOf p
  rvalue := valueOf p
  rcv := receiverOf p

/-- The frame of FENC (R96, R97): `canId` is the sender (D9), `olen` 7, extended form, `O[7]` 0x00
(D27). No operand is checked (R98). -/
def buildFrame (sender : CanId) (id16 index value : Word16) : BuiltFrame where
  canId := sender
  olen := 7
  O :=
    let idDone := writeField (Vector.replicate 8 0) 0 id16
    let markerDone := writeLane idDone 2 marker
    let indexDone := writeField markerDone 3 index
    let valueDone := writeField indexDone 5 value
    writeLane valueDone 7 0

/-- FENC.RD (R96): `MemWrite(5, 2, 0x0000)`. -/
def encodeRead (sender : CanId) (id16 index : Word16) : BuiltFrame := buildFrame sender id16 index 0

/-- FENC.WR (R97): `MemWrite(5, 2, raw)`. -/
def encodeWrite (sender : CanId) (id16 index raw : Word16) : BuiltFrame :=
  buildFrame sender id16 index raw

/-- FDEC (R90), refused when `len` is above 8 (R235). -/
def execFdec (s : State) : Result := withPayload s fun p => respondDecoded (decodeFrame p) s

/-- FENC.RD (R96). -/
def execFencRd (s : State) : Result :=
  respondFrame (encodeRead s.req.sender s.req.id16 s.req.index) s

/-- FENC.WR (R97). -/
def execFencWr (s : State) : Result :=
  respondFrame (encodeWrite s.req.sender s.req.id16 s.req.index s.req.raw) s

end Sys2Proof.Machine
end

