-- ==== Sys2Proof/Machine/ValueCodec.lean ====
section
/-! DEFINITION. The ValueCodec (spec/42_value_codec.md): V.ENC and V.DEC for the 19 kinds. The
shared helpers are R124 to R129; each operation of Part 2 is one line over them. An encoded value of
`none` is the spec's `any value` (R123). -/

namespace Sys2Proof.Machine

/-! ### Encode helpers -/

/-- An integer that must lie in a range to have a 16-bit pattern (R124, R125; D7): outside, `any
value`. -/
def patternIn (lo hi z : Int) : Option Word16 :=
  if lo ≤ z ∧ z ≤ hi then some (u16OfInt z) else none

/-- `10^n` as a rational. -/
def powTen (n : Nat) : Rat := ((10 ^ n : Nat) : Rat)

/-- `enc_fixed(n, e)` (R124): the product is exact, the rounding is ROUND_TIES. -/
def encFixed (n : Nat) : Eng → Option Word16
  | .nan => none
  | .fin q => patternIn (-32768) 32767 (roundBy Config.roundTies (q * powTen n))

/-- `enc_raw(e)` (R125): truncation is TRUNC_DIR. -/
def encRaw : Eng → Option Word16
  | .nan => none
  | .fin q => patternIn (-32768) 65535 (truncBy Config.truncDir q)

/-- `enc_swap(e)` (R126): "any value stays any value". -/
def encSwap (e : Eng) : Option Word16 := (encRaw e).map swap16

/-! ### Decode helpers: the sentinel test on `raw` comes first (R122, R237) -/

/-- `dec_fixed(n, raw)` (R127). -/
def decFixed (n : Nat) (raw : Word16) : Eng :=
  if raw = noValue then .nan else .fin ((s16 raw : Rat) / powTen n)

/-- `dec_raw(raw)` (R128). -/
def decRaw (raw : Word16) : Eng := if raw = noValue then .nan else .fin ((raw.toNat : Int) : Rat)

/-- `dec_swap(raw)` (R129). -/
def decSwap (raw : Word16) : Eng :=
  if raw = noValue then .nan else .fin (((swap16 raw).toNat : Int) : Rat)

/-! ### SMALL_KIND_RULE (R8, R120, D8; assumption log 11): the default rule both ways -/

/-- The encode rule of BYTE, BOOL and LE_BOOL. -/
def encSmall (e : Eng) : Option Word16 := encRaw e

/-- The decode rule of BYTE, BOOL and LE_BOOL. -/
def decSmall (raw : Word16) : Eng := decRaw raw

/-! ### Dispatch by kind (R120) -/

/-- V.ENC as one function of the kind (R120). -/
def vEnc : Kind → Eng → Option Word16
  | .defaultRaw, e => encRaw e
  | .dec1, e => encFixed (scale .dec1) e
  | .dec2, e => encFixed (scale .dec2) e
  | .dec3, e => encFixed (scale .dec3) e
  | .byte, e => encSmall e
  | .bool, e => encSmall e
  | .leBool, e => encSmall e
  | .double, e => encRaw e
  | .triple, e => encRaw e
  | .invDouble, e => encRaw e
  | .invTriple, e => encRaw e
  | .le16, e => encSwap e
  | .mode, e => encRaw e
  | .time, e => encRaw e
  | .date, e => encRaw e
  | .domain, e => encRaw e
  | .devnum, e => encRaw e
  | .errnum, e => encRaw e
  | .devid, e => encRaw e

/-- V.DEC as one function of the kind (R120). For a multi-word kind, the decode of one word (R170). -/
def vDec : Kind → Word16 → Eng
  | .defaultRaw, raw => decRaw raw
  | .dec1, raw => decFixed (scale .dec1) raw
  | .dec2, raw => decFixed (scale .dec2) raw
  | .dec3, raw => decFixed (scale .dec3) raw
  | .byte, raw => decSmall raw
  | .bool, raw => decSmall raw
  | .leBool, raw => decSmall raw
  | .double, raw => decRaw raw
  | .triple, raw => decRaw raw
  | .invDouble, raw => decRaw raw
  | .invTriple, raw => decRaw raw
  | .le16, raw => decSwap raw
  | .mode, raw => decRaw raw
  | .time, raw => decRaw raw
  | .date, raw => decRaw raw
  | .domain, raw => decRaw raw
  | .devnum, raw => decRaw raw
  | .errnum, raw => decRaw raw
  | .devid, raw => decRaw raw

/-! ### The 19 encode operations -/

/-- V.ENC.DEFAULT (R131). -/
def execVEncDefaultRaw (s : State) : Result := respondEncoded (vEnc .defaultRaw s.req.eng) s

/-- V.ENC.DEC1 (R133). -/
def execVEncDec1 (s : State) : Result := respondEncoded (vEnc .dec1 s.req.eng) s

/-- V.ENC.DEC2 (R135). -/
def execVEncDec2 (s : State) : Result := respondEncoded (vEnc .dec2 s.req.eng) s

/-- V.ENC.DEC3 (R137). -/
def execVEncDec3 (s : State) : Result := respondEncoded (vEnc .dec3 s.req.eng) s

/-- V.ENC.BYTE (R139). -/
def execVEncByte (s : State) : Result := respondEncoded (vEnc .byte s.req.eng) s

/-- V.ENC.BOOL (R141). -/
def execVEncBool (s : State) : Result := respondEncoded (vEnc .bool s.req.eng) s

/-- V.ENC.LE_BOOL (R143). -/
def execVEncLeBool (s : State) : Result := respondEncoded (vEnc .leBool s.req.eng) s

/-- V.ENC.DOUBLE (R145). -/
def execVEncDouble (s : State) : Result := respondEncoded (vEnc .double s.req.eng) s

/-- V.ENC.TRIPLE (R147). -/
def execVEncTriple (s : State) : Result := respondEncoded (vEnc .triple s.req.eng) s

/-- V.ENC.INV_DOUBLE (R149). -/
def execVEncInvDouble (s : State) : Result := respondEncoded (vEnc .invDouble s.req.eng) s

/-- V.ENC.INV_TRIPLE (R151). -/
def execVEncInvTriple (s : State) : Result := respondEncoded (vEnc .invTriple s.req.eng) s

/-- V.ENC.LE16 (R153). -/
def execVEncLe16 (s : State) : Result := respondEncoded (vEnc .le16 s.req.eng) s

/-- V.ENC.MODE (R155). -/
def execVEncMode (s : State) : Result := respondEncoded (vEnc .mode s.req.eng) s

/-- V.ENC.TIME (R157). -/
def execVEncTime (s : State) : Result := respondEncoded (vEnc .time s.req.eng) s

/-- V.ENC.DATE (R159). -/
def execVEncDate (s : State) : Result := respondEncoded (vEnc .date s.req.eng) s

/-- V.ENC.DOMAIN (R161). -/
def execVEncDomain (s : State) : Result := respondEncoded (vEnc .domain s.req.eng) s

/-- V.ENC.DEVNUM (R163). -/
def execVEncDevnum (s : State) : Result := respondEncoded (vEnc .devnum s.req.eng) s

/-- V.ENC.ERRNUM (R165). -/
def execVEncErrnum (s : State) : Result := respondEncoded (vEnc .errnum s.req.eng) s

/-- V.ENC.DEVID (R167). -/
def execVEncDevid (s : State) : Result := respondEncoded (vEnc .devid s.req.eng) s

/-! ### The 19 decode operations -/

/-- V.DEC.DEFAULT (R132). -/
def execVDecDefaultRaw (s : State) : Result := respondEng (vDec .defaultRaw s.req.raw) s

/-- V.DEC.DEC1 (R134). -/
def execVDecDec1 (s : State) : Result := respondEng (vDec .dec1 s.req.raw) s

/-- V.DEC.DEC2 (R136). -/
def execVDecDec2 (s : State) : Result := respondEng (vDec .dec2 s.req.raw) s

/-- V.DEC.DEC3 (R138). -/
def execVDecDec3 (s : State) : Result := respondEng (vDec .dec3 s.req.raw) s

/-- V.DEC.BYTE (R140). -/
def execVDecByte (s : State) : Result := respondEng (vDec .byte s.req.raw) s

/-- V.DEC.BOOL (R142). -/
def execVDecBool (s : State) : Result := respondEng (vDec .bool s.req.raw) s

/-- V.DEC.LE_BOOL (R144). -/
def execVDecLeBool (s : State) : Result := respondEng (vDec .leBool s.req.raw) s

/-- V.DEC.DOUBLE (R146). -/
def execVDecDouble (s : State) : Result := respondEng (vDec .double s.req.raw) s

/-- V.DEC.TRIPLE (R148). -/
def execVDecTriple (s : State) : Result := respondEng (vDec .triple s.req.raw) s

/-- V.DEC.INV_DOUBLE (R150). -/
def execVDecInvDouble (s : State) : Result := respondEng (vDec .invDouble s.req.raw) s

/-- V.DEC.INV_TRIPLE (R152). -/
def execVDecInvTriple (s : State) : Result := respondEng (vDec .invTriple s.req.raw) s

/-- V.DEC.LE16 (R154). -/
def execVDecLe16 (s : State) : Result := respondEng (vDec .le16 s.req.raw) s

/-- V.DEC.MODE (R156). -/
def execVDecMode (s : State) : Result := respondEng (vDec .mode s.req.raw) s

/-- V.DEC.TIME (R158). -/
def execVDecTime (s : State) : Result := respondEng (vDec .time s.req.raw) s

/-- V.DEC.DATE (R160). -/
def execVDecDate (s : State) : Result := respondEng (vDec .date s.req.raw) s

/-- V.DEC.DOMAIN (R162). -/
def execVDecDomain (s : State) : Result := respondEng (vDec .domain s.req.raw) s

/-- V.DEC.DEVNUM (R164). -/
def execVDecDevnum (s : State) : Result := respondEng (vDec .devnum s.req.raw) s

/-- V.DEC.ERRNUM (R166). -/
def execVDecErrnum (s : State) : Result := respondEng (vDec .errnum s.req.raw) s

/-- V.DEC.DEVID (R168). -/
def execVDecDevid (s : State) : Result := respondEng (vDec .devid s.req.raw) s

end Sys2Proof.Machine
end

