-- ==== Sys2Proof/Machine/Composite.lean ====
section
/-! DEFINITION. The pseudo-operations BUILD.RD, BUILD.WR.k and PARSE.k
(spec/44_composite_operations.md): "each is *defined* as its expansion". They have no command word
of their own (R78); the wire layouts and the environment use them. -/

namespace Sys2Proof.Machine

/-- BUILD.RD (R180): A.RID then FENC.RD. -/
def buildRd (sender : CanId) (addr : Addr) (index : Word16) : BuiltFrame :=
  encodeRead sender (readId addr) index

/-- BUILD.WR.k (R181): A.WID, V.ENC.k, FENC.WR; where V.ENC.k is `any value`, the free value of this
draw. -/
def buildWr (k : Kind) (sender : CanId) (addr : Addr) (index : Word16) (e : Eng) (draw : Nat) :
    BuiltFrame :=
  encodeWrite sender (writeId addr) index (encodedOr draw (vEnc k e))

/-- The results of PARSE.k (R182), with the `rvalue` that R32 lists for PARSE as well (assumption
log 41). -/
structure Parsed where
  knib : Option Nibble
  kclass : KindClass
  confirm : Bool
  rindex : Word16
  rvalue : Word16
  reng : Eng
  deriving DecidableEq, Repr

/-- PARSE.k (R182): FDEC then V.DEC.k. -/
def parse (k : Kind) (p : List Byte) : Parsed :=
  let d := decodeFrame p
  ⟨d.knib, d.kclass, d.confirm, d.rindex, d.rvalue, vDec k d.rvalue⟩

end Sys2Proof.Machine
end

