-- ==== Sys2Proof/Machine/WordCombination.lean ====
section
/-! DEFINITION. Word combination (spec/43_word_combination.md): V.COMB for the four multi-word
kinds. The NaN test of the required operands comes before the arithmetic (R237); the arithmetic is
exact (D24). -/

namespace Sys2Proof.Machine

/-- Two words, the first one most significant: NaN when either is (R171, R175). -/
def combineTwo : Eng → Eng → Eng
  | .fin high, .fin low => .fin (high * 1000 + low)
  | .fin _, .nan => .nan
  | .nan, _ => .nan

/-- Three words, the first one most significant: NaN when any is (R172, R175). -/
def combineThree : Eng → Eng → Eng → Eng
  | .fin high, .fin mid, .fin low => .fin (high * 1000000 + mid * 1000 + low)
  | .fin _, .fin _, .nan => .nan
  | .fin _, .nan, _ => .nan
  | .nan, _, _ => .nan

/-- V.COMB.DOUBLE (R171): `w2` is ignored entirely. -/
def combDouble (w0 w1 _w2 : Eng) : Eng := combineTwo w0 w1

/-- V.COMB.TRIPLE (R172). -/
def combTriple (w0 w1 w2 : Eng) : Eng := combineThree w0 w1 w2

/-- V.COMB.INV_DOUBLE (R173) under INVERSE_ORDER: the word at the lowest index is the least
significant one, or with the literal reading of §4.4 the most significant one. -/
def combInvDouble : InverseOrder → Eng → Eng → Eng → Eng
  | .indexOrderLswFirst, w0, w1, _ => combineTwo w1 w0
  | .literal44, w0, w1, _ => combineTwo w0 w1

/-- V.COMB.INV_TRIPLE (R174) under INVERSE_ORDER. -/
def combInvTriple : InverseOrder → Eng → Eng → Eng → Eng
  | .indexOrderLswFirst, w0, w1, w2 => combineThree w2 w1 w0
  | .literal44, w0, w1, w2 => combineThree w0 w1 w2

/-- V.COMB as a function of the kind; it exists for the multi-word kinds only (R177). -/
def vComb : Kind → Eng → Eng → Eng → Option Eng
  | .double, w0, w1, w2 => some (combDouble w0 w1 w2)
  | .triple, w0, w1, w2 => some (combTriple w0 w1 w2)
  | .invDouble, w0, w1, w2 => some (combInvDouble Config.inverseOrder w0 w1 w2)
  | .invTriple, w0, w1, w2 => some (combInvTriple Config.inverseOrder w0 w1 w2)
  | .defaultRaw, _, _, _ => none
  | .dec1, _, _, _ => none
  | .dec2, _, _, _ => none
  | .dec3, _, _, _ => none
  | .byte, _, _, _ => none
  | .bool, _, _, _ => none
  | .leBool, _, _, _ => none
  | .le16, _, _, _ => none
  | .mode, _, _, _ => none
  | .time, _, _, _ => none
  | .date, _, _, _ => none
  | .domain, _, _, _ => none
  | .devnum, _, _, _ => none
  | .errnum, _, _, _ => none
  | .devid, _, _, _ => none

/-- V.COMB.DOUBLE (R171). -/
def execVCombDouble (s : State) : Result :=
  respondEng (combDouble s.req.w0 s.req.w1 s.req.w2) s

/-- V.COMB.TRIPLE (R172). -/
def execVCombTriple (s : State) : Result :=
  respondEng (combTriple s.req.w0 s.req.w1 s.req.w2) s

/-- V.COMB.INV_DOUBLE (R173). -/
def execVCombInvDouble (s : State) : Result :=
  respondEng (combInvDouble Config.inverseOrder s.req.w0 s.req.w1 s.req.w2) s

/-- V.COMB.INV_TRIPLE (R174). -/
def execVCombInvTriple (s : State) : Result :=
  respondEng (combInvTriple Config.inverseOrder s.req.w0 s.req.w1 s.req.w2) s

end Sys2Proof.Machine
end

