-- ==== Sys2Proof/Machine/Environment.lean ====
section
/-! DEFINITION. The environment of the block (spec/48_environment_collaborators.md R190 to R219):
RegisterWatcher, Dispatcher, RequestQueue and the calls to the transport, the publish sink and the
log. "Nothing in this file is part of the block"; it calls the block's functions (assumption log 21)
and moves by the host's input events (R219). Time is not modelled: a tick, a poll or a timer is an
event (assumption log 29). -/

namespace Sys2Proof.Machine

/-! ### Watchers -/

/-- The index of word `k` of a register, `elsterIndex + k` (R197). Beyond 0xFFFF the source defines
no index (R184, N17): a free value (assumption log 23). -/
def wordIndex (base : Word16) (k : Nat) : Word16 :=
  if base.toNat + k ≤ 0xFFFF then BitVec.ofNat 16 (base.toNat + k) else Config.indexBeyond base k

/-- Whether a watcher takes part at all: not "permanently failed/disabled" (R207). -/
def Watcher.enabled (w : Watcher) : Bool := !w.failed

/-- The match of R203: `canId` equals the target's `numericAddress` (C12, D18; assumption log 30) and
the decoded index lies in `[elsterIndex, elsterIndex + wordCount - 1]`. The source does not say what
`elsterIndex + k` is beyond 0xFFFF (R184, R260, N17): the range is compared over integers and does not
wrap, so such a register is matched by its words up to 0xFFFF and by no other (DESIGN CHOICE,
assumption log 43). -/
def Watcher.matchesFrame (w : Watcher) (canId : CanId) (rindex : Word16) : Bool :=
  decide (canId = w.config.target.numericAddress.zeroExtend 29) &&
  decide (w.config.elsterIndex.toNat ≤ rindex.toNat) &&
  decide (rindex.toNat < w.config.elsterIndex.toNat + wordCount w.config.encoding)

/-- `partialValues[k] <- e` (R205); k is 0, 1 or 2 by the match. -/
def Slots.put (sl : Slots) (k : Nat) (e : Eng) : Slots :=
  match k with
  | 0 => { sl with s0 := e }
  | 1 => { sl with s1 := e }
  | _ => { sl with s2 := e }

/-- The slots at "unset" (R191). -/
def Slots.unset : Slots := ⟨.nan, .nan, .nan⟩

/-- V.COMB of the slots (R205); a single-word kind has no combination (R177). -/
def Slots.combine (k : Kind) (sl : Slots) : Option Eng := vComb k sl.s0 sl.s1 sl.s2

/-- `onFrame` of a single-word watcher after a match: "immediately decodes and publishes
(propagating NaN through on the missing-value sentinel)" (R204). -/
def Watcher.takeValue (w : Watcher) (rvalue : Word16) : Watcher × Option Eng :=
  let e := vDec w.config.encoding rvalue
  ({ w with lastPublished := some e }, some e)

/-- The watcher with its word stored (R205) and the free phase of R196. -/
def Watcher.storeWord (w : Watcher) (rindex rvalue : Word16) (ph : Phase) : Watcher :=
  { w with
    slots := w.slots.put (rindex.toNat - w.config.elsterIndex.toNat) (vDec w.config.encoding rvalue)
    phase := ph }

/-- `onFrame` of a multi-word watcher after a match: the word is stored, then the combination is
attempted, and published only if finite (R205). -/
def Watcher.takeWord (w : Watcher) (rindex rvalue : Word16) (ph : Phase) : Watcher × Option Eng :=
  let stored := w.storeWord rindex rvalue ph
  match stored.slots.combine w.config.encoding with
  | some (.fin q) => ({ stored with lastPublished := some (.fin q) }, some (.fin q))
  | some .nan => (stored, none)
  | none => (stored, none)

/-- `onFrame` (R203 to R205): the watcher after the frame, and what it publishes. A disabled watcher
"never processes frames" (R207). -/
def Watcher.onFrame (w : Watcher) (canId : CanId) (rindex rvalue : Word16) (ph : Phase) :
    Watcher × Option Eng :=
  if w.enabled && w.matchesFrame canId rindex then
    if wordCount w.config.encoding = 1 then w.takeValue rvalue else w.takeWord rindex rvalue ph
  else (w, none)

/-- The watcher's part of `beginReadCycle`: "Resets all `partialValues` to NaN" (R197); a multi-word
watcher enters AwaitingWords (R196). -/
def Watcher.restart (w : Watcher) : Watcher :=
  { w with
    slots := Slots.unset
    phase := if wordCount w.config.encoding = 1 then w.phase else .awaitingWords }

/-- The read requests of one cycle (R197): BUILD.RD for each word, at ascending indices (D28). -/
def readRequests (senderId : CanId) (c : WatcherConfig) : List CanFrame :=
  (List.range (wordCount c.encoding)).map fun k =>
    (buildRd senderId c.target.numericAddress (wordIndex c.elsterIndex k)).toFrame

/-! ### Registries -/

/-- The watchers of a registry. -/
def Env.registry (e : Env) : Registry → List Watcher
  | .readOnly => e.readOnly
  | .writable => e.writable

/-- The watcher at a reference, if there is one. -/
def Env.watcher? (e : Env) (r : WatcherRef) : Option Watcher := (e.registry r.registry)[r.position]?

/-- The environment with the watcher at a reference changed. -/
def Env.modifyWatcher (e : Env) (r : WatcherRef) (f : Watcher → Watcher) : Env :=
  match r.registry with
  | .readOnly => { e with readOnly := e.readOnly.modify r.position f }
  | .writable => { e with writable := e.writable.modify r.position f }

/-- `beginReadCycle()` of a watcher (R197): its requests enter the queue, its slots are reset. A
disabled watcher "issues nothing" (R197, R207); a reference to no watcher changes nothing
(assumption log 27). -/
def Env.beginReadCycle (e : Env) (r : WatcherRef) : Env :=
  match e.watcher? r with
  | none => e
  | some w =>
    if w.enabled then
      let e' := e.modifyWatcher r Watcher.restart
      { e' with queue := e.queue ++ readRequests e.senderId w.config }
    else e

/-! ### Dispatcher -/

/-- A frame is offered to every watcher of a registry in insertion order (R200, R202): the registry
after it, from position `at` on. -/
def offerWatchers (writable : Bool) (draw : Nat) (canId : CanId) (rindex rvalue : Word16) :
    Nat → List Watcher → List Watcher
  | _, [] => []
  | at', w :: ws =>
    (w.onFrame canId rindex rvalue (Config.anyPhase draw writable at')).1 ::
      offerWatchers writable draw canId rindex rvalue (at' + 1) ws

/-- The `publish` calls of one registry for one frame, in the order of offering (R202, R212). -/
def offerPublished (reg : Registry) (canId : CanId) (rindex rvalue : Word16) :
    Nat → List Watcher → List Publication
  | _, [] => []
  | at', w :: ws =>
    let rest := offerPublished reg canId rindex rvalue (at' + 1) ws
    match (w.onFrame canId rindex rvalue .idle).2 with
    | some e => ⟨⟨reg, at'⟩, e⟩ :: rest
    | none => rest

/-- The two registries' calls in the order the dispatcher takes them, which "no ordering guarantee"
fixes (R193, R202, U16): a free choice (assumption log 25). -/
def inSomeOrder (draw : Nat) (fromReadOnly fromWritable : List Publication) : List Publication :=
  if Config.writableFirst draw then fromWritable ++ fromReadOnly else fromReadOnly ++ fromWritable

/-- The fields of the log line of a received frame (R213): the value is signed decimal, or the
placeholder for nibble 1; the sender is the `canId` as delivered (R118). -/
def logEntry (canId : CanId) (payload : List Byte) : LogEntry :=
  let d := decodeFrame payload
  { sender := canId
    payload := payload
    index := d.rindex
    value := if d.knib = some 1 then none else some (s16 d.rvalue)
    receiver := d.rcv }

/-- Routing of a decoded confirmation (R200): every enabled matching watcher takes it. -/
def Env.dispatch (e : Env) (canId : CanId) (d : Decoded) (draw : Nat) : Env :=
  { e with
    readOnly := offerWatchers false draw canId d.rindex d.rvalue 0 e.readOnly
    writable := offerWatchers true draw canId d.rindex d.rvalue 0 e.writable
    published := e.published ++ inSomeOrder draw
      (offerPublished .readOnly canId d.rindex d.rvalue 0 e.readOnly)
      (offerPublished .writable canId d.rindex d.rvalue 0 e.writable) }

/-- An inbound frame (R200, R201): one FDEC, logged, and forwarded exactly when `confirm` is 1. -/
def Env.receiveFrame (e : Env) (canId : CanId) (payload : List Byte) (draw : Nat) : Env :=
  let d := decodeFrame payload
  let logged := { e with logged := e.logged ++ [logEntry canId payload] }
  if d.confirm then logged.dispatch canId d draw else logged

/-! ### RequestQueue, timers, control -/

/-- A call of `sendFrame` with `extended = false` (R98, R210). -/
def Env.send (e : Env) (frame : CanFrame) (accepted : Bool) : Env :=
  { e with sent := e.sent ++ [⟨frame, false, accepted⟩] }

/-- One tick (R208): the head of a non-empty queue is removed and handed to `sendFrame`; no retry. -/
def Env.drain (e : Env) (accepted : Bool) : Env :=
  match e.queue with
  | [] => e
  | frame :: rest => { e with queue := rest }.send frame accepted

/-- A pending one-shot timer fires (R206, R211): it is used up and its watcher begins a read cycle. -/
def Env.fireTimer (e : Env) (place : Nat) : Env :=
  match e.timers[place]? with
  | none => e
  | some t => { e with timers := e.timers.eraseIdx place }.beginReadCycle t.watcher

/-- A pending one-shot timer is cancelled (R206, U17). -/
def Env.cancelTimer (e : Env) (place : Nat) : Env := { e with timers := e.timers.eraseIdx place }

/-- `control(value)` of an enabled Writable watcher (R206): BUILD.WR, sent at once past the queue
(R209), and a one-shot timer for the confirming read cycle. A disabled watcher or none: no effect
(R207; assumption log 27). -/
def Env.controlWatcher (e : Env) (position : Nat) (value : Rat) (accepted : Bool) (draw : Nat) : Env :=
  match e.writable[position]? with
  | none => e
  | some w =>
    if w.enabled then
      let frame := buildWr w.config.encoding e.senderId w.config.target.numericAddress
        w.config.elsterIndex (.fin value) draw
      let sent := e.send frame.toFrame accepted
      { sent with timers := e.timers ++ [⟨e.settleDelayMs, ⟨.writable, position⟩⟩] }
    else e

/-! ### Events of the host -/

/-- The environment moves; it never stops the machine (R216). -/
def moveEnv (e : Env) (s : State) : Result := .next (s.moved e)

/-- A delivered frame (R210): the flags `extended` and `rtr` are not examined (D17; assumption log
39); a payload longer than 8 bytes is no CAN payload and is refused (R43, R235). -/
def receiveEvent (canId : CanId) (payload : List Byte) (s : State) : Result :=
  withBytes payload fun p => moveEnv (s.env.receiveFrame canId p s.draws) s

/-- A queue-drain tick (R208, R211). -/
def tickEvent (accepted : Bool) (s : State) : Result := moveEnv (s.env.drain accepted) s

/-- The callback of a one-shot timer. -/
def timerEvent (place : Nat) (s : State) : Result := moveEnv (s.env.fireTimer place) s

/-- The cancellation of a one-shot timer. -/
def cancelEvent (place : Nat) (s : State) : Result := moveEnv (s.env.cancelTimer place) s

/-- A poll of a watcher. -/
def pollEvent (r : WatcherRef) (s : State) : Result := moveEnv (s.env.beginReadCycle r) s

/-- A write through a Writable watcher. -/
def controlEvent (position : Nat) (value : Rat) (accepted : Bool) (s : State) : Result :=
  moveEnv (s.env.controlWatcher position value accepted s.draws) s

end Sys2Proof.Machine
end

