-- ==== Sys2Proof/Machine/WireLayouts.lean ====
section
/-! DEFINITION. The table's five wire layouts. "those five are layouts, not operations" (R75): a
layout has no behaviour of its own, so its meaning is the composition of operations that the spec
says reads it or builds it, as R78 does for its pseudo-operations (DESIGN CHOICE, assumption log 15).
A received form is read by FDEC (R61, R62); the two built shapes are what FENC builds from the id of
an address (R69); an identifier is what the address scheme gives (R66). -/

namespace Sys2Proof.Machine

/-- FRAME.EXT (R61): FDEC of the payload laid out. -/
def execFrameExt (idhHi knib : Nibble) (idl : Byte) (index value : Word16) (s : State) : Result :=
  withBytes (frameExtBytes idhHi knib idl index value) fun p => respondDecoded (decodeFrame p) s

/-- FRAME.SHORT (R62): FDEC of the payload laid out. -/
def execFrameShort (idhHi knib : Nibble) (idl index : Byte) (rest : List Byte) (s : State) : Result :=
  withBytes (frameShortBytes idhHi knib idl index rest) fun p => respondDecoded (decodeFrame p) s

/-- FRAME.RD (R69, R180): "built by FENC.RD from A.RID of the address", from the `sender` port. -/
def execFrameRd (addr : Addr) (index : Word16) (s : State) : Result :=
  respondFrame (buildRd s.req.sender addr index) s

/-- FRAME.WR (R69): "built by FENC.WR from A.WID of the address", from the `sender` port. -/
def execFrameWr (addr : Addr) (index value : Word16) (s : State) : Result :=
  respondFrame (encodeWrite s.req.sender (writeId addr) index value) s

/-- ID16 (R66): A.WID, A.RID or A.RSP of the address. -/
def execId16 (addr : Addr) (tag : IdTag) (s : State) : Result := respondR16 (idOf tag addr) s

end Sys2Proof.Machine
end

