-- ==== Sys2Proof/Machine/Dispatch.lean ====
section
/-! DEFINITION. One arm per instruction, each one call of its meaning. -/

namespace Sys2Proof.Machine

def exec (i : Instr) (s : State) : Host.Outcome State Fault Refusal :=
  match i with
  | .fdec => Sys2Proof.Machine.execFdec s
  | .fencRd => Sys2Proof.Machine.execFencRd s
  | .fencWr => Sys2Proof.Machine.execFencWr s
  | .aWid => Sys2Proof.Machine.execAWid s
  | .aRid => Sys2Proof.Machine.execARid s
  | .aRsp => Sys2Proof.Machine.execARsp s
  | .aRcv => Sys2Proof.Machine.execARcv s
  | .vEncDefaultRaw => Sys2Proof.Machine.execVEncDefaultRaw s
  | .vEncDec1 => Sys2Proof.Machine.execVEncDec1 s
  | .vEncDec2 => Sys2Proof.Machine.execVEncDec2 s
  | .vEncDec3 => Sys2Proof.Machine.execVEncDec3 s
  | .vEncByte => Sys2Proof.Machine.execVEncByte s
  | .vEncBool => Sys2Proof.Machine.execVEncBool s
  | .vEncLeBool => Sys2Proof.Machine.execVEncLeBool s
  | .vEncDouble => Sys2Proof.Machine.execVEncDouble s
  | .vEncTriple => Sys2Proof.Machine.execVEncTriple s
  | .vEncInvDouble => Sys2Proof.Machine.execVEncInvDouble s
  | .vEncInvTriple => Sys2Proof.Machine.execVEncInvTriple s
  | .vEncLe16 => Sys2Proof.Machine.execVEncLe16 s
  | .vEncMode => Sys2Proof.Machine.execVEncMode s
  | .vEncTime => Sys2Proof.Machine.execVEncTime s
  | .vEncDate => Sys2Proof.Machine.execVEncDate s
  | .vEncDomain => Sys2Proof.Machine.execVEncDomain s
  | .vEncDevnum => Sys2Proof.Machine.execVEncDevnum s
  | .vEncErrnum => Sys2Proof.Machine.execVEncErrnum s
  | .vEncDevid => Sys2Proof.Machine.execVEncDevid s
  | .vDecDefaultRaw => Sys2Proof.Machine.execVDecDefaultRaw s
  | .vDecDec1 => Sys2Proof.Machine.execVDecDec1 s
  | .vDecDec2 => Sys2Proof.Machine.execVDecDec2 s
  | .vDecDec3 => Sys2Proof.Machine.execVDecDec3 s
  | .vDecByte => Sys2Proof.Machine.execVDecByte s
  | .vDecBool => Sys2Proof.Machine.execVDecBool s
  | .vDecLeBool => Sys2Proof.Machine.execVDecLeBool s
  | .vDecDouble => Sys2Proof.Machine.execVDecDouble s
  | .vDecTriple => Sys2Proof.Machine.execVDecTriple s
  | .vDecInvDouble => Sys2Proof.Machine.execVDecInvDouble s
  | .vDecInvTriple => Sys2Proof.Machine.execVDecInvTriple s
  | .vDecLe16 => Sys2Proof.Machine.execVDecLe16 s
  | .vDecMode => Sys2Proof.Machine.execVDecMode s
  | .vDecTime => Sys2Proof.Machine.execVDecTime s
  | .vDecDate => Sys2Proof.Machine.execVDecDate s
  | .vDecDomain => Sys2Proof.Machine.execVDecDomain s
  | .vDecDevnum => Sys2Proof.Machine.execVDecDevnum s
  | .vDecErrnum => Sys2Proof.Machine.execVDecErrnum s
  | .vDecDevid => Sys2Proof.Machine.execVDecDevid s
  | .vCombDouble => Sys2Proof.Machine.execVCombDouble s
  | .vCombTriple => Sys2Proof.Machine.execVCombTriple s
  | .vCombInvDouble => Sys2Proof.Machine.execVCombInvDouble s
  | .vCombInvTriple => Sys2Proof.Machine.execVCombInvTriple s
  | .frameExt idhHi knib idl index value => Sys2Proof.Machine.execFrameExt idhHi knib idl index value s
  | .frameShort idhHi knib idl index rest => Sys2Proof.Machine.execFrameShort idhHi knib idl index rest s
  | .frameRd addr index => Sys2Proof.Machine.execFrameRd addr index s
  | .frameWr addr index value => Sys2Proof.Machine.execFrameWr addr index value s
  | .id16 addr tag => Sys2Proof.Machine.execId16 addr tag s

end Sys2Proof.Machine
end

