-- ==== Sys2Proof/Machine/Service.lean ====
section
/-! DEFINITION. Serving a presented request: the block's counterpart of a fetch (R21, R31, R246). -/

namespace Sys2Proof.Machine

/-- A request is latched on the ports, decoded, and executed (R31, R75). -/
def serve (r : Request) (s : State) : Result :=
  match decode r.word with
  | .ok i => exec i (s.latched r)
  | .error e => .refused (.reserved e)

end Sys2Proof.Machine
end

