-- ==== Sys2Proof/Machine/Step.lean ====
section
/-! DEFINITION. One step: the next input of the host is taken and answered (R20, R21, R246 for a
request to the block; R219 for the environment). -/

namespace Sys2Proof.Machine

/-- One step. With nothing presented nothing happens (R21; assumption log 2). -/
def step (s : State) : Host.Outcome State Fault Refusal :=
  match s.inputs with
  | [] => .next s
  | .request r :: rest => serve r (s.awaiting rest)
  | .receive canId _ _ payload :: rest => receiveEvent canId payload (s.awaiting rest)
  | .tick accepted :: rest => tickEvent accepted (s.awaiting rest)
  | .timerFires place :: rest => timerEvent place (s.awaiting rest)
  | .timerCancelled place :: rest => cancelEvent place (s.awaiting rest)
  | .poll r :: rest => pollEvent r (s.awaiting rest)
  | .control position value accepted :: rest =>
    controlEvent position value accepted (s.awaiting rest)

/-- The state in which a word of spec/opcode_table.json is the next thing presented, with the
operand ports as they stand (assumption logs 1 and 16). -/
def State.withFetchWord (s : State) (nbits w : Nat) : State :=
  s.awaiting (.request { s.req with word := presentTableWord nbits w } :: s.inputs)

end Sys2Proof.Machine
end

