-- ==== Sys2Proof/Machine/ConcreteFloat.lean ====
section
/-! DEFINITION. The parameter FLOAT_FORMAT (R8) and how the exact rules relate to a concrete format
(R121, item U3). The machine's arithmetic is exact (D4); these relations say what an implementation
over a format F may answer, with round-to-nearest `rn_F` and its ties left open. R121 speaks of formats
that hold the operands exactly; for narrower ones, and past the greatest number of a format, these
relations are the model's choice (DESIGN CHOICE, assumption log 42). -/

namespace Sys2Proof.Machine

/-- The greatest exponent of a format. -/
def maxExponent (f : FloatFormat) : Int := f.minExponent + f.exponentSpan

/-- `q` is a number of the format. -/
def representsIn (f : FloatFormat) (q : Rat) : Prop :=
  ∃ m e : Int, |m| < 2 ^ (f.precision : Nat) ∧ f.minExponent ≤ e ∧ e ≤ maxExponent f ∧
    q = (m : Rat) * 2 ^ e

/-- `r` is `rn_F(q)`: a number of the format, none nearer to `q` (R121). Past the greatest number of the
format that is the greatest number, since Eng has no infinity (R12): DESIGN CHOICE, assumption log 42. -/
def roundsTo (f : FloatFormat) (q r : Rat) : Prop :=
  representsIn f r ∧ ∀ x, representsIn f x → |q - r| ≤ |q - x|

/-- What a fixed-point V.DEC may answer in the format: "one division by 10^n", rounded (R121). R121
calls the conversion of the integer exact in formats with 16 or more significand bits and says nothing
of narrower ones: there the model rounds the exact quotient once, as if `s16(raw)` and `10^n` were
numbers of the format (DESIGN CHOICE, assumption log 42). -/
def decFixedIn (f : FloatFormat) (n : Nat) (raw : Word16) : Eng → Prop
  | .nan => raw = noValue
  | .fin r => raw ≠ noValue ∧ roundsTo f ((s16 raw : Rat) / powTen n) r

/-- What a fixed-point V.ENC may answer in the format: "the product is rounded to F before `round` is
applied" (R121); outside the helper's range and for NaN any value (R123). The exact product is rounded
once also where `10^n` or the operand is no number of the format, of which R121 says nothing (DESIGN
CHOICE, assumption log 42). -/
def encFixedIn (f : FloatFormat) (n : Nat) (e : Eng) (v : Word16) : Prop :=
  match e with
  | .nan => True
  | .fin q => ∃ x, roundsTo f (q * powTen n) x ∧
      ∀ w, patternIn (-32768) 32767 (roundBy Config.roundTies x) = some w → v = w

end Sys2Proof.Machine
end

