-- ==== Sys2Proof/Safety.lean ====
section
/-! DEFINITION. The terms in which claims are stated: the frame of a block operation, the results an
operation names (R75), which inputs the machine serves (R235), the rounding relations of R13, and
what a sound environment is (R191 to R207). -/

namespace Sys2Proof.Machine

/-! ### The block -/

/-- The frame of every operation of the block: the request, the environment and what the host
presents next are unchanged, and one draw of the free values is used up. The response ports are the
operation's own: those it names hold its results, the others are unspecified (R32). -/
def OnlyPorts (s t : State) : Prop :=
  t.req = s.req ∧ t.env = s.env ∧ t.inputs = s.inputs ∧ t.draws = s.draws + 1

/-- The "results" column of R75, by groups of ports. -/
inductive Results where
  | decoded
  | frame
  | rcv
  | r16
  | reng
  deriving DecidableEq, Repr

/-- The results an instruction names (R75; for a wire layout, those of what it expands to). -/
def namedResults : Instr → Results
  | .fdec => .decoded
  | .fencRd => .frame
  | .fencWr => .frame
  | .aWid => .r16
  | .aRid => .r16
  | .aRsp => .r16
  | .aRcv => .rcv
  | .vEncDefaultRaw => .r16
  | .vEncDec1 => .r16
  | .vEncDec2 => .r16
  | .vEncDec3 => .r16
  | .vEncByte => .r16
  | .vEncBool => .r16
  | .vEncLeBool => .r16
  | .vEncDouble => .r16
  | .vEncTriple => .r16
  | .vEncInvDouble => .r16
  | .vEncInvTriple => .r16
  | .vEncLe16 => .r16
  | .vEncMode => .r16
  | .vEncTime => .r16
  | .vEncDate => .r16
  | .vEncDomain => .r16
  | .vEncDevnum => .r16
  | .vEncErrnum => .r16
  | .vEncDevid => .r16
  | .vDecDefaultRaw => .reng
  | .vDecDec1 => .reng
  | .vDecDec2 => .reng
  | .vDecDec3 => .reng
  | .vDecByte => .reng
  | .vDecBool => .reng
  | .vDecLeBool => .reng
  | .vDecDouble => .reng
  | .vDecTriple => .reng
  | .vDecInvDouble => .reng
  | .vDecInvTriple => .reng
  | .vDecLe16 => .reng
  | .vDecMode => .reng
  | .vDecTime => .reng
  | .vDecDate => .reng
  | .vDecDomain => .reng
  | .vDecDevnum => .reng
  | .vDecErrnum => .reng
  | .vDecDevid => .reng
  | .vCombDouble => .reng
  | .vCombTriple => .reng
  | .vCombInvDouble => .reng
  | .vCombInvTriple => .reng
  | .frameExt _ _ _ _ _ => .decoded
  | .frameShort _ _ _ _ _ => .decoded
  | .frameRd _ _ => .frame
  | .frameWr _ _ _ => .frame
  | .id16 _ _ => .r16

/-- Two responses agree on a group of ports. -/
def Response.agreeOn (g : Results) (a b : Response) : Prop :=
  match g with
  | .decoded => a.knib = b.knib ∧ a.kclass = b.kclass ∧ a.confirm = b.confirm ∧
      a.rindex = b.rindex ∧ a.rvalue = b.rvalue ∧ a.rcv = b.rcv
  | .frame => a.canId = b.canId ∧ a.O = b.O ∧ a.olen = b.olen
  | .rcv => a.rcv = b.rcv
  | .r16 => a.r16 = b.r16
  | .reng => a.reng = b.reng

/-- Two responses agree on every port outside a group. -/
def Response.agreeOutside (g : Results) (a b : Response) : Prop :=
  (g ≠ .decoded → a.knib = b.knib ∧ a.kclass = b.kclass ∧ a.confirm = b.confirm ∧
    a.rindex = b.rindex ∧ a.rvalue = b.rvalue) ∧
  (g ≠ .decoded → g ≠ .rcv → a.rcv = b.rcv) ∧
  (g ≠ .frame → a.canId = b.canId ∧ a.O = b.O ∧ a.olen = b.olen) ∧
  (g ≠ .r16 → a.r16 = b.r16) ∧
  (g ≠ .reng → a.reng = b.reng)

/-- The identifier operation of a tag: A.WID, A.RID, A.RSP. -/
def idInstr : IdTag → Instr
  | .write => .aWid
  | .read => .aRid
  | .response => .aRsp

/-- The refusals of R235 that a command word and a length meet: `op` is `cmd[8:5]`, `kind` is
`cmd[4:0]` (R71). Items U8 (four cases) and U7. -/
def refusedByRule (cmd : BitVec 9) (len : BitVec 4) : Prop :=
  let op := cmd.toNat / 32
  let tag := cmd.toNat % 32
  (op = 0 ∨ 11 ≤ op) ∨
  ((op = 8 ∨ op = 9) ∧ 19 ≤ tag) ∨
  (op = 10 ∧ ¬ (7 ≤ tag ∧ tag ≤ 10)) ∨
  (1 ≤ op ∧ op ≤ 7 ∧ tag ≠ 0) ∨
  ((op = 1 ∨ op = 7) ∧ 9 ≤ len.toNat)

/-! ### Rounding, as relations (R13) -/

/-- `z` is the integer nearest to `x`, an exact half going away from zero (R13, D5). -/
def NearestAway (x : Rat) (z : Int) : Prop :=
  |x - z| < 1 / 2 ∨ (|x - z| = 1 / 2 ∧ |x| < |(z : Rat)|)

/-- `z` is the integer part of `x` toward zero (R13, D6). -/
def TruncatesTo (x : Rat) (z : Int) : Prop :=
  (0 ≤ x → (z : Rat) ≤ x ∧ x < z + 1) ∧ (x < 0 → (z : Rat) - 1 < x ∧ x ≤ z)

/-! ### Kinds and combinations, written out for the statements -/

/-- The word count of R29's table, independent of the model's `wordCount`. -/
def wordsOf (k : Kind) : Nat :=
  if k = .double ∨ k = .invDouble then 2 else if k = .triple ∨ k = .invTriple then 3 else 1

/-- `c` is the combination of the slots by the formulas of R171 to R174 and the NaN rule of R175
(INVERSE_ORDER at decision D20, assumption log 12); a single-word kind has none (R177). Independent of
the model's `vComb`. -/
def IsCombination (k : Kind) (sl : Slots) (c : Eng) : Prop :=
  match k with
  | .double =>
    (∃ a b, sl.s0 = .fin a ∧ sl.s1 = .fin b ∧ c = .fin (a * 1000 + b)) ∨
    ((sl.s0 = .nan ∨ sl.s1 = .nan) ∧ c = .nan)
  | .invDouble =>
    (∃ a b, sl.s0 = .fin a ∧ sl.s1 = .fin b ∧ c = .fin (a + b * 1000)) ∨
    ((sl.s0 = .nan ∨ sl.s1 = .nan) ∧ c = .nan)
  | .triple =>
    (∃ a b d, sl.s0 = .fin a ∧ sl.s1 = .fin b ∧ sl.s2 = .fin d ∧
      c = .fin (a * 1000000 + b * 1000 + d)) ∨
    ((sl.s0 = .nan ∨ sl.s1 = .nan ∨ sl.s2 = .nan) ∧ c = .nan)
  | .invTriple =>
    (∃ a b d, sl.s0 = .fin a ∧ sl.s1 = .fin b ∧ sl.s2 = .fin d ∧
      c = .fin (a + b * 1000 + d * 1000000)) ∨
    ((sl.s0 = .nan ∨ sl.s1 = .nan ∨ sl.s2 = .nan) ∧ c = .nan)
  | .defaultRaw | .dec1 | .dec2 | .dec3 | .byte | .bool | .leBool | .le16 | .mode | .time | .date
  | .domain | .devnum | .errnum | .devid => False

/-! ### The environment -/

/-- A slot's value: NaN, or a decoded word, "integers 0 to 65535, never 32768" (R176). -/
def wordValue : Eng → Prop
  | .nan => True
  | .fin q => ∃ n : Nat, q = ((n : Int) : Rat) ∧ n < 65536 ∧ n ≠ 32768

/-- What holds of every watcher after setup (R191, R196, R204, R205, R207). -/
structure Watcher.Sound (reg : Registry) (w : Watcher) : Prop where
  /-- The mark is set exactly for a multi-word kind on a Writable watcher (R207). -/
  mark : w.failed = true ↔ reg = .writable ∧ wordCount w.config.encoding ≠ 1
  /-- Slots hold NaN or decoded words (R205). -/
  words : wordValue w.slots.s0 ∧ wordValue w.slots.s1 ∧ wordValue w.slots.s2
  /-- Slots are "used only for double/triple variants" (R191), and only they await words (R196). -/
  single : wordCount w.config.encoding = 1 → w.slots = Slots.unset ∧ w.phase = .idle
  /-- A multi-word watcher never publishes NaN (R205). -/
  finite : wordCount w.config.encoding ≠ 1 → w.lastPublished ≠ some .nan
  /-- A disabled watcher "never processes frames" (R207). -/
  inert : w.failed = true →
    w.slots = Slots.unset ∧ w.lastPublished = none ∧ w.phase = .idle

/-- The bytes of a read request as R69 prints them. -/
def isReadRequest (senderId : CanId) (f : CanFrame) : Prop :=
  f.canId = senderId ∧ ∃ (a : Addr) (ix : Word16), f.payload = extendedBytes (idLayout a .read) ix 0

/-- What holds of the environment after setup and after every step. -/
structure Env.Sound (e : Env) : Prop where
  /-- SENDER_ID is below 0x800 (R8). -/
  sender : e.senderId.toNat < 0x800
  readOnly : ∀ w ∈ e.readOnly, Watcher.Sound .readOnly w
  writable : ∀ w ∈ e.writable, Watcher.Sound .writable w
  /-- Only read requests enter the queue (R197, R209). -/
  queue : ∀ f ∈ e.queue, isReadRequest e.senderId f
  /-- The time constants are positive (R8). -/
  periods : 0 < e.tickIntervalMs ∧ 0 < e.settleDelayMs
  /-- Only `control` of an existing, enabled Writable watcher arms a timer, for the settle delay
  (R206, R207). -/
  timers : ∀ t ∈ e.timers, t.delayMs = e.settleDelayMs ∧ t.watcher.registry = .writable ∧
    ∃ w, e.writable[t.watcher.position]? = some w ∧ w.failed = false

/-- The invariant of the machine: what every step keeps. -/
def Inv (s : State) : Prop := s.env.Sound

/-- What the configuration fixes for good (R191: "never change after setup"; R207: the mark "is
permanent"). -/
def Env.setup (e : Env) : CanId × Nat × Nat × List (WatcherConfig × Bool) × List (WatcherConfig × Bool) :=
  (e.senderId, e.tickIntervalMs, e.settleDelayMs,
    e.readOnly.map fun w => (w.config, w.failed), e.writable.map fun w => (w.config, w.failed))

end Sys2Proof.Machine
end

