-- ==== Sys2Proof/Certificates/Slice0/Obligations.lean ====
section
/-! DEFINITION. The statements for the provers. Each docstring names the rules of spec/ it states or
rests on; where a clause rests on a decision of the spec (D<n>) or on a choice of the model, it says
so. `OnlyPorts s t` is the frame of an operation of the block (Safety.lean). -/

open Sys2Proof Sys2Proof.Machine

/-! ## The machine -/

/-- A presented request whose word decodes is executed: the request is latched on the ports, it leaves
the input list, and the step is the instruction's (R21, R31, R75; assumption log 1). -/
def Obligations.StepServesDecodedRequest : Prop :=
  ∀ (s : State) (r : Request) (rest : List Input) (i : Instr),
    s.inputs = .request r :: rest → decode r.word = .ok i →
    step s = exec i ((s.awaiting rest).latched r)

/-- The step of a command request ends in a refusal exactly on the requests of R235 (items U7 and U8;
decisions D2, D3, D12), and otherwise in a next state (R246). -/
def Obligations.StepRefusesExactlyTheReservedRequests : Prop :=
  ∀ (s : State) (r : Request) (rest : List Input) (cmd : BitVec 9),
    s.inputs = .request r :: rest → r.word = .command cmd →
    (refusedByRule cmd r.len → ∃ e, step s = .refused e) ∧
    (¬ refusedByRule cmd r.len → ∃ t, step s = .next t ∧ t.env = s.env ∧ t.inputs = rest)

/-- Every event of the host other than a request is answered, a delivered frame when its payload is at
most 8 bytes (R7, R216, R219); it leaves the ports of the block alone (assumption log 21). -/
def Obligations.EnvironmentEventsAreAnswered : Prop :=
  ∀ (s : State) (i : Input) (rest : List Input), s.inputs = i :: rest →
    (∀ r, i ≠ .request r) →
    (∀ c x y p, i = .receive c x y p → p.length ≤ 8) →
    ∃ t, step s = .next t ∧ t.req = s.req ∧ t.resp = s.resp ∧ t.inputs = rest

/-- A payload longer than 8 bytes is refused by FDEC and by A.RCV (R43; decision D12). That the delivery
of such a frame is refused in the same way is the model's choice (assumption log 17). -/
def Obligations.PayloadAboveEightIsRefused : Prop :=
  (∀ s : State, 8 < s.req.len.toNat →
    exec .fdec s = .refused (.payloadLength s.req.len.toNat) ∧
    exec .aRcv s = .refused (.payloadLength s.req.len.toNat)) ∧
  (∀ (s : State) (c : CanId) (x y : Bool) (p : List Byte) (rest : List Input),
    s.inputs = .receive c x y p :: rest → 8 < p.length →
    step s = .refused (.payloadLength p.length))

/-- The results an instruction names depend on the request alone: whatever the environment, the
earlier responses and the draws are, equal requests give equal results (R20, R53). For V.ENC this is
claimed on the domain of R123, outside which the result is any value. -/
def Obligations.ResultsDependOnTheRequestOnly : Prop :=
  ∀ (i : Instr) (s₁ s₂ t₁ : State), s₁.req = s₂.req →
    (∀ k, i = vEncOf k → vEnc k s₁.req.eng ≠ none) →
    exec i s₁ = .next t₁ →
    ∃ t₂, exec i s₂ = .next t₂ ∧ t₁.resp.agreeOn (namedResults i) t₂.resp

/-- The frame of every instruction: when exec answers, the request, the environment and what is
presented next are unchanged, and every response port outside the results the instruction names (R75)
is unspecified in this response (R32): it holds the free values of this draw (assumption log 3). -/
def Obligations.OnlyTheNamedResultsAreSpecified : Prop :=
  ∀ (i : Instr) (s t : State), exec i s = .next t →
    OnlyPorts s t ∧ t.resp.agreeOutside (namedResults i) (Response.unspecified s.draws)

/-- The block and its environment do not touch each other: a request changes only the ports and the
draw counter, any other event only the environment and the draw counter (R5, R20, R190; assumption
log 21). -/
def Obligations.BlockAndEnvironmentAreSeparate : Prop :=
  ∀ (s t : State) (i : Input) (rest : List Input), s.inputs = i :: rest → step s = .next t →
    t.inputs = rest ∧ t.draws = s.draws + 1 ∧
    (∀ r, i = .request r → t.req = r ∧ t.env = s.env) ∧
    ((∀ r, i ≠ .request r) → t.req = s.req ∧ t.resp = s.resp)

/-- At reset nothing is presented and the environment is at the start values of R194 (decision D14),
for every deployment: slots NaN, nothing published, Idle, queue empty. -/
def Obligations.ResetStartsTheEnvironment : Prop :=
  State.reset.inputs = [] ∧ State.reset.env.queue = [] ∧ State.reset.env.timers = [] ∧
  ∀ (reg : Registry) (w : Watcher), w ∈ State.reset.env.registry reg →
    w.slots = ⟨.nan, .nan, .nan⟩ ∧ w.lastPublished = none ∧ w.phase = .idle

/-- The invariant of Safety.lean holds at reset, for every deployment (R8, R191 to R194, R207). -/
def Obligations.SoundAtReset : Prop := Inv State.reset

/-- Every step keeps the invariant, from every state that has it: the marks are those of setup, slots
hold NaN or decoded words, multi-word watchers never publish NaN, disabled watchers stay untouched,
only read requests are queued, timers belong to enabled Writable watchers (R176, R191, R197, R204 to
R209), the time constants are positive (R8) and every timer runs for the settle delay. -/
def Obligations.EveryStepKeepsSoundness : Prop :=
  ∀ s t : State, Inv s → step s = .next t → Inv t

/-- No step changes what setup fixed: SENDER_ID, the time constants, the watchers in their order, their
configuration and their failed marks (R23, R191, R193, R207). -/
def Obligations.SetupNeverChanges : Prop :=
  ∀ s t : State, step s = .next t → t.env.setup = s.env.setup

/-! ## Encodings -/

/-- Decoding the encoding of a well-formed instruction gives it back, for all 54 constructors and every
operand (R61, R62, R66, R69, R71, R72, R75; numbering D2, D3; wire words assumption logs 15, 16). -/
def Obligations.DecodeOfEncodeIsIdentity : Prop :=
  ∀ i : Instr, i.WellFormed → decode (encode i) = .ok i

/-- Whatever decodes is the encoding of what it decodes to, and that is well-formed: no presented word
is read as an instruction it does not spell, and no bit is ignored. The numbering of command words is
decisions D2 and D3 (assumption log 14); the four presented forms are the model's choice (assumption
log 16). -/
def Obligations.EncodeOfDecodeIsIdentity : Prop :=
  ∀ (p : Presented) (i : Instr), decode p = .ok i → encode i = p ∧ i.WellFormed

/-- Words of spec/opcode_table.json, one or more for each family, read as the rows they belong to
(R75, R61, R62, R66, R69). The command numbers are decisions D2 and D3 (assumption log 14); that a
payload is presented as received or as built, and an id as an identifier, is the model's choice
(assumption log 16: a built frame of 7 bytes is also a FRAME.EXT word). -/
def Obligations.TableWordsDecode : Prop :=
  decode (.command 0x020) = .ok .fdec ∧ decode (.command 0x040) = .ok .fencRd ∧
  decode (.command 0x060) = .ok .fencWr ∧ decode (.command 0x0A0) = .ok .aRid ∧
  decode (.command 0x101) = .ok .vEncDec1 ∧ decode (.command 0x112) = .ok .vEncDevid ∧
  decode (.command 0x12B) = .ok .vDecLe16 ∧ decode (.command 0x14A) = .ok .vCombInvTriple ∧
  decode (.received [0x32, 0x00, 0xFA, 0x00, 0x0C, 0x00, 0xD7]) =
    .ok (.frameExt 3 2 0 0x000C 0x00D7) ∧
  decode (.received [0x32, 0x00, 0x0B, 0x01, 0x2C]) = .ok (.frameShort 3 2 0 0x0B [0x01, 0x2C]) ∧
  decode (.built [0x61, 0x01, 0xFA, 0x01, 0x26, 0x00, 0x00]) = .ok (.frameRd 0x301 0x0126) ∧
  decode (.built [0x30, 0x00, 0xFA, 0x00, 0x13, 0x00, 0xD7]) = .ok (.frameWr 0x180 0x0013 0x00D7) ∧
  decode (.identifier 0xFA3F) = .ok (.id16 0x7FF .response)

/-! ## FDEC and A.RCV -/

/-- FDEC answers on every payload of 0 to 8 bytes, its results computed from the present lanes as R90
to R95 say. The class of the empty payload is decision D11; the sentinel of a failed inner length
requirement is decision D23. -/
def Obligations.FdecAnswersFromThePresentLanes : Prop :=
  ∀ s : State, s.req.len.toNat ≤ 8 → ∃ t, exec .fdec s = .next t ∧ OnlyPorts s t ∧
    let n := s.req.len.toNat
    let b := s.req.B
    (n = 0 → t.resp.knib = none ∧ t.resp.kclass = .none ∧ t.resp.confirm = false) ∧
    (n ≠ 0 →
      (∃ k, t.resp.knib = some k ∧ k.toNat = (b[0] &&& 0x0F).toNat ∧
        (k.toNat = 0 → t.resp.kclass = .write) ∧ (k.toNat = 1 → t.resp.kclass = .ack) ∧
        (k.toNat = 2 → t.resp.kclass = .confirm) ∧ (3 ≤ k.toNat → t.resp.kclass = .other)) ∧
      (t.resp.confirm = true ↔ b[0] &&& 0x0F = 2)) ∧
    t.resp.rindex.toNat =
      (if n < 3 ∨ 7 < n then 0xFFFF
       else if b[2] = 0xFA then (if 5 ≤ n then b[3].toNat * 256 + b[4].toNat else 0xFFFF)
       else b[2].toNat) ∧
    t.resp.rvalue.toNat =
      (if n < 5 ∨ 7 < n then 0x8000
       else if b[2] = 0xFA then (if n = 7 then b[5].toNat * 256 + b[6].toNat else 0x8000)
       else b[3].toNat * 256 + b[4].toNat) ∧
    t.resp.rcv.toNat =
      (if n < 2 then 0xFFFF
       else if b[1] = 0x79 then 0xFFFF
       else ((b[0].toNat &&& 0xF0) <<< 3) + (b[1].toNat &&& 0x7F))

/-- A.RCV answers on every payload of 0 to 8 bytes with the receiver of R113. -/
def Obligations.RcvAnswersTheReceiver : Prop :=
  ∀ s : State, s.req.len.toNat ≤ 8 → ∃ t, exec .aRcv s = .next t ∧ OnlyPorts s t ∧
    t.resp.rcv.toNat =
      (if s.req.len.toNat < 2 then 0xFFFF
       else if s.req.B[1] = 0x79 then 0xFFFF
       else ((s.req.B[0].toNat &&& 0xF0) <<< 3) + (s.req.B[1].toNat &&& 0x7F))

/-- Two requests that agree on the length and on every present lane get equal results from FDEC and
from A.RCV: absent bytes do not matter (R41, and the law R42 the spec derives from it). -/
def Obligations.AbsentLanesDoNotMatter : Prop :=
  ∀ s₁ s₂ : State, s₁.req.len = s₂.req.len → s₁.req.len.toNat ≤ 8 →
    (∀ (i : Nat) (h : i < 8), i < s₁.req.len.toNat → s₁.req.B[i] = s₂.req.B[i]) →
    (∃ t₁ t₂, exec .fdec s₁ = .next t₁ ∧ exec .fdec s₂ = .next t₂ ∧
      t₁.resp.agreeOn .decoded t₂.resp) ∧
    (∃ t₁ t₂, exec .aRcv s₁ = .next t₁ ∧ exec .aRcv s₂ = .next t₂ ∧
      t₁.resp.rcv = t₂.resp.rcv)

/-! ## FENC -/

/-- FENC.RD answers on every operand with the payload R96 prints: extended form, length 7, value bytes
zero. `canId` = sender is decision D9, `O[7]` = 0 decision D27. -/
def Obligations.FencRdBuildsAReadRequest : Prop :=
  ∀ s : State, ∃ t, exec .fencRd s = .next t ∧ OnlyPorts s t ∧
    t.resp.canId = s.req.sender ∧ t.resp.olen = 7 ∧
    t.resp.O.toList = [(s.req.id16 >>> 8).setWidth 8, s.req.id16.setWidth 8, 0xFA,
      (s.req.index >>> 8).setWidth 8, s.req.index.setWidth 8, 0, 0, 0]

/-- FENC.WR answers on every operand with the payload R97 prints. `canId` = sender is decision D9,
`O[7]` = 0 decision D27. -/
def Obligations.FencWrBuildsAWriteRequest : Prop :=
  ∀ s : State, ∃ t, exec .fencWr s = .next t ∧ OnlyPorts s t ∧
    t.resp.canId = s.req.sender ∧ t.resp.olen = 7 ∧
    t.resp.O.toList = [(s.req.id16 >>> 8).setWidth 8, s.req.id16.setWidth 8, 0xFA,
      (s.req.index >>> 8).setWidth 8, s.req.index.setWidth 8,
      (s.req.raw >>> 8).setWidth 8, s.req.raw.setWidth 8, 0]

/-- FDEC of a frame FENC built gives back its index and value, the nibble of the id and the receiver of
the id bytes (the law R99, which the spec derives from R91 to R97 and R113); a read request decodes to
the data value 0 (R266). -/
def Obligations.BuiltFramesDecodeBack : Prop :=
  ∀ (i : Instr) (s t s' : State), (i = .fencRd ∨ i = .fencWr) → exec i s = .next t →
    s'.req.B = t.resp.O → s'.req.len = t.resp.olen →
    ∃ u, exec .fdec s' = .next u ∧ OnlyPorts s' u ∧
      u.resp.knib = some (s.req.id16.extractLsb' 8 4) ∧ u.resp.rindex = s.req.index ∧
      u.resp.rvalue = (if i = .fencWr then s.req.raw else 0) ∧
      u.resp.rcv.toNat = (if s.req.id16.toNat % 256 = 0x79 then 0xFFFF
        else ((s.req.id16.toNat / 256 &&& 0xF0) <<< 3) + (s.req.id16.toNat &&& 0x7F))

/-! ## Addresses -/

/-- A.WID, A.RID and A.RSP answer on every address with the formulas R110 to R112 print, over integers
and so without truncation (R9). -/
def Obligations.AddressIdsFollowTheFormulas : Prop :=
  ∀ s : State,
    let w := ((s.req.addr.toNat &&& 0x7C0) <<< 5) ||| (s.req.addr.toNat &&& 0x3F)
    (∃ t, exec .aWid s = .next t ∧ OnlyPorts s t ∧ t.resp.r16.toNat = w) ∧
    (∃ t, exec .aRid s = .next t ∧ OnlyPorts s t ∧ t.resp.r16.toNat = w ||| 0x100) ∧
    (∃ t, exec .aRsp s = .next t ∧ OnlyPorts s t ∧ t.resp.r16.toNat = w ||| 0x200)

/-- Ids never collide: equal results of the three id operations come from the same operation and the
same address (the law R115, which the spec derives from R110 to R112). -/
def Obligations.IdsNeverCollide : Prop :=
  ∀ (x y : IdTag) (s₁ s₂ t₁ t₂ : State), exec (idInstr x) s₁ = .next t₁ →
    exec (idInstr y) s₂ = .next t₂ → t₁.resp.r16 = t₂.resp.r16 →
    x = y ∧ s₁.req.addr = s₂.req.addr

/-- A.RCV of the bytes of an id is the address with bit 6 cleared, so it is not the inverse of the id
formulas (the law R116, which the spec derives from R110 to R113; `90_conflicts.md` C4). -/
def Obligations.ReceiverOfAnIdLosesBitSix : Prop :=
  ∀ (x : IdTag) (s t s' : State), exec (idInstr x) s = .next t →
    s'.req.B[0] = (t.resp.r16 >>> 8).setWidth 8 → s'.req.B[1] = t.resp.r16.setWidth 8 →
    2 ≤ s'.req.len.toNat → s'.req.len.toNat ≤ 8 →
    ∃ u, exec .aRcv s' = .next u ∧ OnlyPorts s' u ∧
      u.resp.rcv = (s.req.addr &&& 0x7BF).setWidth 16

/-- FDEC of a payload that starts with an id of an address has the kind nibble `addr[6] * 8 + t` (the
law R117); with address bit 6 set its class is OTHER and it is never a confirmation (R264). -/
def Obligations.KindNibbleOfAnId : Prop :=
  ∀ (x : IdTag) (s t s' : State), exec (idInstr x) s = .next t →
    s'.req.B[0] = (t.resp.r16 >>> 8).setWidth 8 → 1 ≤ s'.req.len.toNat → s'.req.len.toNat ≤ 8 →
    ∃ u k, exec .fdec s' = .next u ∧ OnlyPorts s' u ∧ u.resp.knib = some k ∧
      k.toNat = s.req.addr.toNat / 64 % 2 * 8 + x.bits.toNat ∧
      (s.req.addr.toNat / 64 % 2 = 1 → u.resp.kclass = .other ∧ u.resp.confirm = false)

/-! ## V.ENC -/

/-- V.ENC of DEC1, DEC2, DEC3: the integer nearest to `q * 10^n`, as a 16-bit two's-complement pattern
(R124; halves away from zero is decision D5, the range decision D7). On every other operand the
operation still answers, with any value (R123). -/
def Obligations.FixedPointEncodeIsNearest : Prop :=
  ∀ (s : State) (k : Kind) (n : Nat), (k, n) ∈ [(Kind.dec1, 1), (Kind.dec2, 2), (Kind.dec3, 3)] →
    (∀ (q : Rat) (z : Int), s.req.eng = .fin q → NearestAway (q * 10 ^ n) z →
      -32768 ≤ z → z ≤ 32767 →
      ∃ t, exec (vEncOf k) s = .next t ∧ OnlyPorts s t ∧ t.resp.r16 = BitVec.ofInt 16 z) ∧
    (∃ t, exec (vEncOf k) s = .next t ∧ OnlyPorts s t)

/-- V.ENC of the kinds that use the default rule: DEFAULT, the seven opaque kinds, the four multi-word
kinds and (decision D8) BYTE, BOOL, LE_BOOL: the integer part as a 16-bit pattern (R125; toward zero is
decision D6, the range decision D7). On every other operand the operation still answers (R123). -/
def Obligations.RawEncodeTruncates : Prop :=
  ∀ (s : State) (k : Kind),
    k ∈ [Kind.defaultRaw, .byte, .bool, .leBool, .double, .triple, .invDouble, .invTriple, .mode,
      .time, .date, .domain, .devnum, .errnum, .devid] →
    (∀ (q : Rat) (z : Int), s.req.eng = .fin q → TruncatesTo q z → -32768 ≤ z → z ≤ 65535 →
      ∃ t, exec (vEncOf k) s = .next t ∧ OnlyPorts s t ∧ t.resp.r16 = BitVec.ofInt 16 z) ∧
    (∃ t, exec (vEncOf k) s = .next t ∧ OnlyPorts s t)

/-- V.ENC.LE16: the integer part as a 16-bit pattern with its bytes swapped (R126, R153; decisions D6,
D7). On every other operand the operation still answers (R123). -/
def Obligations.SwappedEncodeSwapsBytes : Prop :=
  ∀ s : State,
    (∀ (q : Rat) (z : Int), s.req.eng = .fin q → TruncatesTo q z → -32768 ≤ z → z ≤ 65535 →
      ∃ t, exec .vEncLe16 s = .next t ∧ OnlyPorts s t ∧
        t.resp.r16.extractLsb' 8 8 = (BitVec.ofInt 16 z).extractLsb' 0 8 ∧
        t.resp.r16.extractLsb' 0 8 = (BitVec.ofInt 16 z).extractLsb' 8 8) ∧
    (∃ t, exec .vEncLe16 s = .next t ∧ OnlyPorts s t)

/-! ## V.DEC -/

/-- V.DEC of DEC1, DEC2, DEC3: NaN at 0x8000, else the signed value over `10^n`, in the range R127
states. -/
def Obligations.FixedPointDecodeDivides : Prop :=
  ∀ (s : State) (k : Kind) (n : Nat), (k, n) ∈ [(Kind.dec1, 1), (Kind.dec2, 2), (Kind.dec3, 3)] →
    ∃ t, exec (vDecOf k) s = .next t ∧ OnlyPorts s t ∧
      (s.req.raw = 0x8000 → t.resp.reng = .nan) ∧
      (s.req.raw ≠ 0x8000 → ∃ q : Rat, t.resp.reng = .fin q ∧
        q * 10 ^ n = ((s.req.raw.toInt : Int) : Rat) ∧
        -32767 ≤ q * 10 ^ n ∧ q * 10 ^ n ≤ 32767)

/-- V.DEC of DEFAULT, the opaque kinds and the words of the multi-word kinds: NaN at 0x8000, else the
unsigned integer, never 32768 (R128). -/
def Obligations.RawDecodeIsUnsigned : Prop :=
  ∀ (s : State) (k : Kind),
    k ∈ [Kind.defaultRaw, .double, .triple, .invDouble, .invTriple, .mode, .time, .date, .domain,
      .devnum, .errnum, .devid] →
    ∃ t, exec (vDecOf k) s = .next t ∧ OnlyPorts s t ∧
      (s.req.raw = 0x8000 → t.resp.reng = .nan) ∧
      (s.req.raw ≠ 0x8000 → t.resp.reng = .fin (s.req.raw.toNat : Rat) ∧
        s.req.raw.toNat ≤ 65535 ∧ s.req.raw.toNat ≠ 32768)

/-- V.DEC of BYTE, BOOL and LE_BOOL follows the default rule: no mask, no normalising, no swap
(SMALL_KIND_RULE, the spec's decision D8; assumption log 11). The NaN at 0x8000 is R122's. -/
def Obligations.SmallKindDecodeIsTheDefaultRule : Prop :=
  ∀ (s : State) (k : Kind), k ∈ [Kind.byte, .bool, .leBool] →
    ∃ t, exec (vDecOf k) s = .next t ∧ OnlyPorts s t ∧
      (s.req.raw = 0x8000 → t.resp.reng = .nan) ∧
      (s.req.raw ≠ 0x8000 → t.resp.reng = .fin (s.req.raw.toNat : Rat))

/-- V.DEC.LE16: NaN at 0x8000, else the unsigned value of the bytes swapped; 32768 is reached, from raw
0x0080, and 128 never is (R129). -/
def Obligations.SwappedDecodeSwapsBytes : Prop :=
  ∀ s : State, ∃ t, exec .vDecLe16 s = .next t ∧ OnlyPorts s t ∧
    (s.req.raw = 0x8000 → t.resp.reng = .nan) ∧
    (s.req.raw ≠ 0x8000 →
      t.resp.reng = .fin ((s.req.raw.toNat % 256 * 256 + s.req.raw.toNat / 256 : Nat) : Rat) ∧
      t.resp.reng ≠ .fin 128) ∧
    (s.req.raw = 0x0080 → t.resp.reng = .fin 32768)

/-- For every kind, V.DEC gives NaN exactly at raw 0x8000 (R122). -/
def Obligations.MissingValueIsExactlyNaN : Prop :=
  ∀ (s : State) (k : Kind), ∃ t, exec (vDecOf k) s = .next t ∧ OnlyPorts s t ∧
    (t.resp.reng = .nan ↔ s.req.raw = 0x8000)

/-! ## Round trips -/

/-- A fixed-point encode followed by a decode of its result comes back within half a unit of the last
decimal, wherever the rounded integer lies in -32767 to 32767 (the law R130, which the spec derives
from R124 and R127). -/
def Obligations.FixedPointRoundTripIsWithinHalfAUnit : Prop :=
  ∀ (s t s' : State) (k : Kind) (n : Nat) (q : Rat),
    (k, n) ∈ [(Kind.dec1, 1), (Kind.dec2, 2), (Kind.dec3, 3)] → s.req.eng = .fin q →
    |q * 10 ^ n| < 32767 + 1 / 2 → exec (vEncOf k) s = .next t → s'.req.raw = t.resp.r16 →
    ∃ u r, exec (vDecOf k) s' = .next u ∧ OnlyPorts s' u ∧ u.resp.reng = .fin r ∧
      |r - q| * 10 ^ n ≤ 1 / 2

/-- A truncating encode followed by a decode of its result comes back at the integer part, less than
one below the value, unless the pattern is the sentinel (the law R130): for the default rule at the
integer 32768, for LE16 at 128. For BYTE, BOOL and LE_BOOL it rests on SMALL_KIND_RULE, decision D8
(assumption log 11). -/
def Obligations.TruncatingRoundTripIsWithinOne : Prop :=
  ∀ (s t s' : State) (k : Kind) (q : Rat), scale k = 0 → s.req.eng = .fin q →
    0 ≤ q → q < 65536 →
    ¬ ((if k = .le16 then (128 : Rat) else 32768) ≤ q ∧ q < (if k = .le16 then 129 else 32769)) →
    exec (vEncOf k) s = .next t → s'.req.raw = t.resp.r16 →
    ∃ u r, exec (vDecOf k) s' = .next u ∧ OnlyPorts s' u ∧ u.resp.reng = .fin r ∧
      0 ≤ q - r ∧ q - r < 1

/-- For every kind, a decode of a value that is not the sentinel followed by an encode of its result
gives the raw value back (the law R130, last bullet, which the spec derives from R124 to R129). For
BYTE, BOOL and LE_BOOL it rests on SMALL_KIND_RULE, decision D8 (assumption log 11). -/
def Obligations.EncodeOfDecodeIsTheRawValue : Prop :=
  ∀ (s t s' : State) (k : Kind), s.req.raw ≠ 0x8000 → exec (vDecOf k) s = .next t →
    s'.req.eng = t.resp.reng →
    ∃ u, exec (vEncOf k) s' = .next u ∧ OnlyPorts s' u ∧ u.resp.r16 = s.req.raw

/-- The chain A.WID, V.ENC.k, FENC.WR, FDEC, V.DEC.k, each operation fed with the results of those
before it (BUILD.WR then PARSE, R181, R182), for every single-word kind: the nibble is `addr[6] * 8`,
index and word come back, and unless the pattern is 0x8000 (which decodes to NaN) the value comes back
within the kind's resolution (the law R183, which the spec derives): half a unit for DEC1, DEC2, DEC3
on the whole domain of V.ENC, less than one for the kinds that truncate. A value of -1 or less in a
truncating kind comes back 65536 higher, as R130 says of negative integers. Rounding and truncation are
decisions D5 and D6; for BYTE, BOOL and LE_BOOL the rule is decision D8 (assumption log 11). -/
def Obligations.WriteThenParseComesBack : Prop :=
  ∀ (s₁ t₁ s₂ t₂ s₃ t₃ s₄ : State) (k : Kind) (q : Rat),
    exec .aWid s₁ = .next t₁ → s₂.req.eng = .fin q → exec (vEncOf k) s₂ = .next t₂ →
    s₃.req.id16 = t₁.resp.r16 → s₃.req.raw = t₂.resp.r16 → exec .fencWr s₃ = .next t₃ →
    s₄.req.B = t₃.resp.O → s₄.req.len = t₃.resp.olen →
    ∃ t₄ nib, exec .fdec s₄ = .next t₄ ∧ OnlyPorts s₄ t₄ ∧ t₄.resp.knib = some nib ∧
      nib.toNat = s₁.req.addr.toNat / 64 % 2 * 8 ∧ t₄.resp.rindex = s₃.req.index ∧
      t₄.resp.rvalue = t₂.resp.r16 ∧
      ∀ s₅ : State, s₅.req.raw = t₄.resp.rvalue →
        ∃ t₅, exec (vDecOf k) s₅ = .next t₅ ∧ OnlyPorts s₅ t₅ ∧
          (t₂.resp.r16 = 0x8000 → t₅.resp.reng = .nan) ∧
          (t₂.resp.r16 ≠ 0x8000 →
            (∀ n : Nat, (k, n) ∈ [(Kind.dec1, 1), (Kind.dec2, 2), (Kind.dec3, 3)] →
              -(32768 + 1 / 2) < q * 10 ^ n → q * 10 ^ n < 32767 + 1 / 2 →
              ∃ r, t₅.resp.reng = .fin r ∧ |r - q| * 10 ^ n ≤ 1 / 2) ∧
            (k ∈ [Kind.defaultRaw, .byte, .bool, .leBool, .le16, .mode, .time, .date, .domain,
                .devnum, .errnum, .devid] →
              (-1 < q → q < 65536 → ∃ r, t₅.resp.reng = .fin r ∧ |r - q| < 1) ∧
              (-32769 < q → q ≤ -1 → ∃ r, t₅.resp.reng = .fin r ∧ |r - (q + 65536)| < 1)))

/-! ## V.COMB -/

/-- V.COMB.DOUBLE and V.COMB.TRIPLE: the first word most significant, NaN exactly when a required word
is NaN, `w2` ignored by DOUBLE (R171, R172). -/
def Obligations.CombineMostSignificantFirst : Prop :=
  ∀ s : State,
    (∃ t, exec .vCombDouble s = .next t ∧ OnlyPorts s t ∧
      (∀ a b, s.req.w0 = .fin a → s.req.w1 = .fin b → t.resp.reng = .fin (a * 1000 + b)) ∧
      (s.req.w0 = .nan ∨ s.req.w1 = .nan → t.resp.reng = .nan)) ∧
    (∃ t, exec .vCombTriple s = .next t ∧ OnlyPorts s t ∧
      (∀ a b c, s.req.w0 = .fin a → s.req.w1 = .fin b → s.req.w2 = .fin c →
        t.resp.reng = .fin (a * 1000000 + b * 1000 + c)) ∧
      (s.req.w0 = .nan ∨ s.req.w1 = .nan ∨ s.req.w2 = .nan → t.resp.reng = .nan))

/-- V.COMB.INV_DOUBLE and V.COMB.INV_TRIPLE: the word at the lowest index least significant
(INVERSE_ORDER at the spec's resolution of C3, decision D20; assumption log 12), NaN exactly when a
required word is NaN (R175). -/
def Obligations.CombineLeastSignificantFirst : Prop :=
  ∀ s : State,
    (∃ t, exec .vCombInvDouble s = .next t ∧ OnlyPorts s t ∧
      (∀ a b, s.req.w0 = .fin a → s.req.w1 = .fin b → t.resp.reng = .fin (a + b * 1000)) ∧
      (s.req.w0 = .nan ∨ s.req.w1 = .nan → t.resp.reng = .nan)) ∧
    (∃ t, exec .vCombInvTriple s = .next t ∧ OnlyPorts s t ∧
      (∀ a b c, s.req.w0 = .fin a → s.req.w1 = .fin b → s.req.w2 = .fin c →
        t.resp.reng = .fin (a + b * 1000 + c * 1000000)) ∧
      (s.req.w0 = .nan ∨ s.req.w1 = .nan ∨ s.req.w2 = .nan → t.resp.reng = .nan))

/-! ## Wire layouts (meaning by assumption log 15) -/

/-- FRAME.RD and FRAME.WR build, from the `sender` port, exactly the bytes of the pattern the layout
prints (R69): the id formulas and the printed layout agree bit by bit. -/
def Obligations.BuiltLayoutsMatchTheirPatterns : Prop :=
  ∀ (s : State) (a : Addr) (ix v : Word16),
    (∃ t, exec (.frameRd a ix) s = .next t ∧ OnlyPorts s t ∧ t.resp.canId = s.req.sender ∧
      t.resp.olen = 7 ∧ encode (.frameRd a ix) = .built (t.resp.O.toList.take 7)) ∧
    (∃ t, exec (.frameWr a ix v) s = .next t ∧ OnlyPorts s t ∧ t.resp.canId = s.req.sender ∧
      t.resp.olen = 7 ∧ encode (.frameWr a ix v) = .built (t.resp.O.toList.take 7))

/-- FRAME.EXT decodes to the fields of its layout (R61, R67). -/
def Obligations.ExtendedLayoutDecodesToItsFields : Prop :=
  ∀ (s : State) (r k : Nibble) (l : Byte) (ix v : Word16),
    ∃ t, exec (.frameExt r k l ix v) s = .next t ∧ OnlyPorts s t ∧ t.resp.knib = some k ∧
      (t.resp.confirm = true ↔ k = 2) ∧ (t.resp.kclass = .confirm ↔ k = 2) ∧
      t.resp.rindex = ix ∧ t.resp.rvalue = v ∧
      t.resp.rcv.toNat = if l = 0x79 then 0xFFFF else r.toNat * 128 + l.toNat % 128

/-- FRAME.SHORT decodes to the fields of its layout, with a value when two bytes or more follow the
index (R62, R67). -/
def Obligations.ShortLayoutDecodesToItsFields : Prop :=
  ∀ (s : State) (r k : Nibble) (l ix : Byte) (rest : List Byte), ix ≠ 0xFA → rest.length ≤ 4 →
    ∃ t, exec (.frameShort r k l ix rest) s = .next t ∧ OnlyPorts s t ∧ t.resp.knib = some k ∧
      (t.resp.confirm = true ↔ k = 2) ∧ t.resp.rindex.toNat = ix.toNat ∧
      (rest.length < 2 → t.resp.rvalue = 0x8000) ∧
      (∀ hi lo more, rest = hi :: lo :: more → t.resp.rvalue.toNat = hi.toNat * 256 + lo.toNat) ∧
      t.resp.rcv.toNat = if l = 0x79 then 0xFFFF else r.toNat * 128 + l.toNat % 128

/-- ID16 gives the identifier whose bits R66 lays out: the formulas of R110 to R112 put `a[10:6]` in
bits 15:11, 0 in bit 10, `t` in bits 9:8, 00 in bits 7:6 and `a[5:0]` in bits 5:0. -/
def Obligations.IdentifiersHaveTheirLayout : Prop :=
  ∀ (s : State) (a : Addr) (x : IdTag), ∃ t, exec (.id16 a x) s = .next t ∧ OnlyPorts s t ∧
    encode (.id16 a x) = .identifier t.resp.r16 ∧
    t.resp.r16.toNat = a.toNat / 64 * 2048 + x.bits.toNat * 256 + a.toNat % 64

/-! ## The environment (outside the block, R5; modelled by assumption log 21) -/

/-- A delivered frame that is no confirmation is dropped: no watcher changes, nothing is published,
queued or sent (R200, R201). -/
def Obligations.DroppedFramesReachNoWatcher : Prop :=
  ∀ (s : State) (c : CanId) (x y : Bool) (p : List Byte) (rest : List Input),
    s.inputs = .receive c x y p :: rest → p.length ≤ 8 →
    (∀ b, p.head? = some b → b &&& 0x0F ≠ 2) →
    ∃ t, step s = .next t ∧ t.env.readOnly = s.env.readOnly ∧ t.env.writable = s.env.writable ∧
      t.env.published = s.env.published ∧ t.env.queue = s.env.queue ∧
      t.env.sent = s.env.sent ∧ t.env.timers = s.env.timers

/-- Every delivered frame leaves one log entry with the fields R213 names: the id as delivered, the
bytes, FDEC's index and receiver, and the value in signed decimal unless the kind nibble is 1. That
every frame is logged, and the entry as a list item, are the model's choice (assumption log 28). -/
def Obligations.DeliveredFramesAreLogged : Prop :=
  ∀ (s : State) (c : CanId) (x y : Bool) (p : List Byte) (rest : List Input),
    s.inputs = .receive c x y p :: rest → p.length ≤ 8 →
    ∃ t v, step s = .next t ∧
      t.env.logged = s.env.logged ++ [⟨c, p, (decodeFrame p).rindex, v, (decodeFrame p).rcv⟩] ∧
      ((decodeFrame p).knib = some 1 → v = none) ∧
      ((decodeFrame p).knib ≠ some 1 → v = some (decodeFrame p).rvalue.toInt)

/-- A confirmation that matches an enabled single-word watcher of either registry is decoded by its
kind and published at once, exactly once, NaN included (R203, R204). The compared id is decision D18;
that a frame with the `rtr` flag set is taken as well is decision D17 (assumption log 39). -/
def Obligations.SingleWordWatchersPublishEachMatch : Prop :=
  ∀ (s : State) (c : CanId) (x y : Bool) (p : List Byte) (rest : List Input) (reg : Registry)
    (i : Nat) (w : Watcher),
    s.inputs = .receive c x y p :: rest → p.length ≤ 8 → (decodeFrame p).confirm = true →
    (s.env.registry reg)[i]? = some w → w.failed = false → wordsOf w.config.encoding = 1 →
    c = w.config.target.numericAddress.setWidth 29 →
    (decodeFrame p).rindex = w.config.elsterIndex →
    ∃ t new, step s = .next t ∧ t.env.published = s.env.published ++ new ∧
      (t.env.registry reg)[i]? =
        some { w with lastPublished := some (vDec w.config.encoding (decodeFrame p).rvalue) } ∧
      new.filter (fun pub => pub.watcher = ⟨reg, i⟩) =
        [⟨⟨reg, i⟩, vDec w.config.encoding (decodeFrame p).rvalue⟩]

/-- A confirmation that matches an enabled multi-word watcher stores the decoded word in the slot
`k = rindex - elsterIndex` and leaves the other slots; then the combination of the slots (R171 to R174)
is published, exactly once, if it is finite, and nothing is published if it is NaN; the last published
value changes only with a publication (R203, R205). The compared id is decision D18; that a frame with
the `rtr` flag set is taken as well is decision D17 (assumption log 39); the word order of the inverse
kinds is decision D20 (assumption log 12). That a register that passes 0xFFFF takes its words up to
0xFFFF is the model's choice (assumption log 43). -/
def Obligations.MultiWordWatchersStoreAndCombine : Prop :=
  ∀ (s : State) (c : CanId) (x y : Bool) (p : List Byte) (rest : List Input) (reg : Registry)
    (i : Nat) (w : Watcher) (k : Nat),
    s.inputs = .receive c x y p :: rest → p.length ≤ 8 → (decodeFrame p).confirm = true →
    (s.env.registry reg)[i]? = some w → w.failed = false → k < wordsOf w.config.encoding →
    wordsOf w.config.encoding ≠ 1 → c = w.config.target.numericAddress.setWidth 29 →
    (decodeFrame p).rindex.toNat = w.config.elsterIndex.toNat + k →
    let e := vDec w.config.encoding (decodeFrame p).rvalue
    ∃ t new w' combined, step s = .next t ∧ t.env.published = s.env.published ++ new ∧
      (t.env.registry reg)[i]? = some w' ∧ w'.config = w.config ∧ w'.failed = w.failed ∧
      (k = 0 → w'.slots = ⟨e, w.slots.s1, w.slots.s2⟩) ∧
      (k = 1 → w'.slots = ⟨w.slots.s0, e, w.slots.s2⟩) ∧
      (k = 2 → w'.slots = ⟨w.slots.s0, w.slots.s1, e⟩) ∧
      IsCombination w.config.encoding w'.slots combined ∧
      (∀ q, combined = .fin q → w'.lastPublished = some (.fin q) ∧
        new.filter (fun pub => pub.watcher = ⟨reg, i⟩) = [⟨⟨reg, i⟩, .fin q⟩]) ∧
      (combined = .nan → w'.lastPublished = w.lastPublished ∧
        new.filter (fun pub => pub.watcher = ⟨reg, i⟩) = [])

/-- A delivered frame leaves a watcher alone when it is disabled, when the frame's id is not its
target's or when the decoded index is outside its range (R203, R207; decision D18). That the range of
a register that passes 0xFFFF does not wrap is the model's choice (assumption log 43). -/
def Obligations.OtherWatchersAreLeftAlone : Prop :=
  ∀ (s : State) (c : CanId) (x y : Bool) (p : List Byte) (rest : List Input) (reg : Registry)
    (i : Nat) (w : Watcher),
    s.inputs = .receive c x y p :: rest → p.length ≤ 8 → (s.env.registry reg)[i]? = some w →
    (w.failed = true ∨ c ≠ w.config.target.numericAddress.setWidth 29 ∨
      (decodeFrame p).rindex.toNat < w.config.elsterIndex.toNat ∨
      w.config.elsterIndex.toNat + wordsOf w.config.encoding ≤ (decodeFrame p).rindex.toNat) →
    ∃ t new, step s = .next t ∧ t.env.published = s.env.published ++ new ∧
      (t.env.registry reg)[i]? = some w ∧
      new.filter (fun pub => pub.watcher = ⟨reg, i⟩) = []

/-- A poll of an enabled watcher enqueues one read request per word (2 for DOUBLE and INV_DOUBLE, 3 for
TRIPLE and INV_TRIPLE, 1 otherwise) at ascending indices, as R69 prints them, resets all slots to NaN
(R197; the order is decision D28) and makes a multi-word watcher await words (R196), for a register
whose last index is at most 0xFFFF (item U20 allows a model a stronger premise; assumption log 23). -/
def Obligations.PollEnqueuesOneReadPerWord : Prop :=
  ∀ (s : State) (r : WatcherRef) (rest : List Input) (w : Watcher),
    s.inputs = .poll r :: rest → s.env.watcher? r = some w → w.failed = false →
    w.config.elsterIndex.toNat + wordsOf w.config.encoding ≤ 0x10000 →
    ∃ t w', step s = .next t ∧
      t.env.queue = s.env.queue ++ (List.range (wordsOf w.config.encoding)).map (fun k =>
        (⟨s.env.senderId, extendedBytes (idLayout w.config.target.numericAddress .read)
          (BitVec.ofNat 16 (w.config.elsterIndex.toNat + k)) 0⟩ : CanFrame)) ∧
      t.env.watcher? r = some w' ∧ w'.slots = ⟨.nan, .nan, .nan⟩ ∧
      (wordsOf w.config.encoding ≠ 1 → w'.phase = .awaitingWords) ∧
      w'.lastPublished = w.lastPublished ∧ t.env.published = s.env.published ∧
      t.env.sent = s.env.sent ∧
      ∀ r', r' ≠ r → t.env.watcher? r' = s.env.watcher? r'

/-- Two polls in a row leave the slots NaN both times, publish nothing and enqueue the requests twice
(R198). For a register that passes 0xFFFF, that both polls ask for the same indices rests on
`Config.indexBeyond` being a function of its operands (DESIGN CHOICE, assumption log 23). -/
def Obligations.PollingTwiceResetsTwice : Prop :=
  ∀ (s : State) (r : WatcherRef) (rest : List Input) (w : Watcher),
    s.inputs = .poll r :: .poll r :: rest → s.env.watcher? r = some w → w.failed = false →
    ∃ t u w₁ w₂ reqs, step s = .next t ∧ step t = .next u ∧
      t.env.watcher? r = some w₁ ∧ w₁.slots = ⟨.nan, .nan, .nan⟩ ∧
      u.env.watcher? r = some w₂ ∧ w₂.slots = ⟨.nan, .nan, .nan⟩ ∧
      reqs.length = wordsOf w.config.encoding ∧
      u.env.queue = s.env.queue ++ reqs ++ reqs ∧ u.env.published = s.env.published

/-- One tick sends the head of the queue and nothing else; on an empty queue it does nothing (R208). -/
def Obligations.TickDrainsOneFrame : Prop :=
  ∀ (s : State) (ok : Bool) (rest : List Input), s.inputs = .tick ok :: rest →
    ∃ t, step s = .next t ∧
      (s.env.queue = [] → t.env = s.env) ∧
      (∀ f q, s.env.queue = f :: q →
        t.env = { s.env with queue := q, sent := s.env.sent ++ [⟨f, false, ok⟩] })

/-- Over as many ticks as there are frames at the front of the queue, exactly those frames are sent, in
their order, one per tick (R208; the transport's answers in the order of the ticks). -/
def Obligations.QueueIsFirstInFirstOut : Prop :=
  ∀ (s : State) (frames : List (CanFrame × Bool)) (more : List CanFrame) (rest : List Input),
    s.env.queue = frames.map Prod.fst ++ more →
    s.inputs = frames.map (fun f => .tick f.2) ++ rest →
    ∃ t, Host.Core.run Sys2Proof.core frames.length s = .next t ∧ t.inputs = rest ∧
      t.env = { s.env with
        queue := more, sent := s.env.sent ++ frames.map (fun f => (⟨f.1, false, f.2⟩ : Sent)) }

/-- `control` of an enabled Writable watcher sends one write frame at once, with the bytes R69 prints
and V.ENC's word, past the queue, and arms one timer for that watcher (R206, R209); that the timer is
armed whatever the transport answers is assumption log 26. -/
def Obligations.ControlSendsPastTheQueue : Prop :=
  ∀ (s : State) (i : Nat) (q : Rat) (ok : Bool) (rest : List Input) (w : Watcher),
    s.inputs = .control i q ok :: rest → s.env.writable[i]? = some w → w.failed = false →
    ∃ t v, step s = .next t ∧ (∀ v', vEnc w.config.encoding (.fin q) = some v' → v = v') ∧
      t.env = { s.env with
        sent := s.env.sent ++ [⟨⟨s.env.senderId, extendedBytes
          (idLayout w.config.target.numericAddress .write) w.config.elsterIndex v⟩, false, ok⟩]
        timers := s.env.timers ++ [⟨s.env.settleDelayMs, ⟨.writable, i⟩⟩] }

/-- A pending timer that fires is used up and begins a read cycle of its watcher (R206, R211): the same
environment as a poll of that watcher, with the timer gone. -/
def Obligations.TimerBeginsAReadCycle : Prop :=
  ∀ (s p u : State) (k : Nat) (o : OneShot) (rest : List Input),
    s.inputs = .timerFires k :: rest → s.env.timers[k]? = some o →
    p.inputs = .poll o.watcher :: rest → p.env = s.env → step p = .next u →
    ∃ t, step s = .next t ∧ t.env = { u.env with timers := s.env.timers.eraseIdx k }

/-- A cancelled timer is removed and nothing else changes in that step (R206, item U17). -/
def Obligations.CancelledTimerIsRemoved : Prop :=
  ∀ (s : State) (k : Nat) (rest : List Input), s.inputs = .timerCancelled k :: rest →
    ∃ t, step s = .next t ∧ t.env = { s.env with timers := s.env.timers.eraseIdx k }

/-- At setup exactly the multi-word kinds on Writable watchers are marked failed, and a failed watcher
is inert for good: no step changes it, and a poll or a `control` of it changes nothing (R207). -/
def Obligations.DisabledWatchersAreInert : Prop :=
  (∀ c : WatcherConfig, (Watcher.start .readOnly c).failed = false ∧
    ((Watcher.start .writable c).failed = true ↔
      c.encoding ∈ [Kind.double, .triple, .invDouble, .invTriple])) ∧
  (∀ (s t : State) (r : WatcherRef) (w : Watcher), s.env.watcher? r = some w → w.failed = true →
    step s = .next t →
    t.env.watcher? r = some w ∧
    (∀ rest, s.inputs = .poll r :: rest → t.env = s.env) ∧
    (∀ i q ok rest, r = ⟨.writable, i⟩ → s.inputs = .control i q ok :: rest → t.env = s.env))

/-! ## Kinds, composites and number formats -/

/-- Every kind has the decimal scale and the word count of R29's table (R30); the scales of the kinds
without a stated scale are decision D21, their names and order decision D3. -/
def Obligations.KindAttributesFollowTheTable : Prop :=
  ∀ k : Kind, wordCount k = wordsOf k ∧
    (k, scale k, wordCount k) ∈
      [(Kind.defaultRaw, 0, 1), (.dec1, 1, 1), (.dec2, 2, 1), (.dec3, 3, 1), (.byte, 0, 1),
       (.bool, 0, 1), (.leBool, 0, 1), (.double, 0, 2), (.triple, 0, 3), (.invDouble, 0, 2),
       (.invTriple, 0, 3), (.le16, 0, 1), (.mode, 0, 1), (.time, 0, 1), (.date, 0, 1),
       (.domain, 0, 1), (.devnum, 0, 1), (.errnum, 0, 1), (.devid, 0, 1)]

/-- The pseudo-operations BUILD.RD, BUILD.WR.k and PARSE.k give what the chains of operations that R180
to R182 expand them to answer. PARSE's `rvalue` is in R32's table and not in R182's results (assumption
log 41). -/
def Obligations.CompositesAreTheirExpansions : Prop :=
  (∀ s t s' u : State, exec .aRid s = .next t → s'.req.id16 = t.resp.r16 →
    exec .fencRd s' = .next u →
    buildRd s'.req.sender s.req.addr s'.req.index = ⟨u.resp.canId, u.resp.O, u.resp.olen⟩) ∧
  (∀ (k : Kind) (s t s' t' s'' u : State), exec .aWid s = .next t → exec (vEncOf k) s' = .next t' →
    s''.req.id16 = t.resp.r16 → s''.req.raw = t'.resp.r16 → exec .fencWr s'' = .next u →
    buildWr k s''.req.sender s.req.addr s''.req.index s'.req.eng s'.draws =
      ⟨u.resp.canId, u.resp.O, u.resp.olen⟩) ∧
  (∀ (k : Kind) (s t s' u : State), exec .fdec s = .next t → s'.req.raw = t.resp.rvalue →
    exec (vDecOf k) s' = .next u →
    parse k s.req.bytes = ⟨t.resp.knib, t.resp.kclass, t.resp.confirm, t.resp.rindex,
      t.resp.rvalue, u.resp.reng⟩)

/-- V.COMB of decoded words (0 to 65535, never 32768) is a non-negative integer, at most 65600535 for
the double kinds and at most 65600600535 for the triple kinds (R176), or NaN; and it is a number of
every format with 36 or more significand bits and the exponent 0, binary64 among them (R176, from
general knowledge there). -/
def Obligations.CombinationsOfWordsStayInRange : Prop :=
  ∀ (s : State) (i : Instr) (top : Nat),
    (i, top) ∈ [(Instr.vCombDouble, 65600535), (.vCombInvDouble, 65600535),
      (.vCombTriple, 65600600535), (.vCombInvTriple, 65600600535)] →
    wordValue s.req.w0 → wordValue s.req.w1 → wordValue s.req.w2 →
    ∃ t, exec i s = .next t ∧ OnlyPorts s t ∧
      ∀ q, t.resp.reng = .fin q → ∃ n : Nat, q = (n : Rat) ∧ n ≤ top ∧
        ∀ f : FloatFormat, 36 ≤ (f.precision : Nat) → f.minExponent ≤ 0 → 0 ≤ maxExponent f →
          representsIn f q

/-- Where a concrete FLOAT_FORMAT agrees with the exact semantics (R121, in part from general knowledge
there; assumption log 8). In a format with 16 or more significand bits and the exponent 0, an unscaled
V.DEC result is a number of the format, so rounding keeps it. A fixed-point V.ENC computed in any format
gives the machine's answer whenever the exact product is a number of the format. A fixed-point V.DEC
computed in any format gives NaN exactly where the machine does, and otherwise the format's nearest
value to the machine's answer; for formats that do not hold the operands exactly (fewer than 16
significand bits) the last two clauses rest on the model's choice of the relations (assumption log 42). -/
def Obligations.ConcreteFormatsAgreeWhereTheyRepresent : Prop :=
  ∀ (f : FloatFormat) (s : State) (k : Kind),
    (16 ≤ (f.precision : Nat) → f.minExponent ≤ 0 → 0 ≤ maxExponent f →
      (k ≠ .dec1 ∧ k ≠ .dec2 ∧ k ≠ .dec3) →
      ∃ t, exec (vDecOf k) s = .next t ∧ OnlyPorts s t ∧
        ∀ q, t.resp.reng = .fin q → ∀ r, roundsTo f q r ↔ r = q) ∧
    (∀ n : Nat, (k, n) ∈ [(Kind.dec1, 1), (Kind.dec2, 2), (Kind.dec3, 3)] →
      (∀ (q : Rat) (z : Int) (v : Word16), s.req.eng = .fin q → representsIn f (q * 10 ^ n) →
        NearestAway (q * 10 ^ n) z → -32768 ≤ z → z ≤ 32767 → encFixedIn f n (.fin q) v →
        ∃ t, exec (vEncOf k) s = .next t ∧ OnlyPorts s t ∧ t.resp.r16 = v) ∧
      (∃ t, exec (vDecOf k) s = .next t ∧ OnlyPorts s t ∧
        (decFixedIn f n s.req.raw .nan ↔ t.resp.reng = .nan) ∧
        ∀ r, decFixedIn f n s.req.raw (.fin r) ↔
          ∃ q, t.resp.reng = .fin q ∧ roundsTo f q r))

/-- The functions in which the statements about the environment speak (`decodeFrame`, `vDec`, `vEnc`,
`vComb`) are what FDEC, V.DEC.k, V.ENC.k and V.COMB.k answer (R200, R204, R205, R206 call the block's
operations). -/
def Obligations.EnvironmentUsesTheOperations : Prop :=
  (∀ s : State, s.req.len.toNat ≤ 8 → ∃ t, exec .fdec s = .next t ∧
    decodeFrame (s.req.B.toList.take s.req.len.toNat) =
      ⟨t.resp.knib, t.resp.kclass, t.resp.confirm, t.resp.rindex, t.resp.rvalue, t.resp.rcv⟩) ∧
  (∀ (s : State) (k : Kind),
    (∃ t, exec (vDecOf k) s = .next t ∧ t.resp.reng = vDec k s.req.raw) ∧
    (∃ t, exec (vEncOf k) s = .next t ∧ ∀ v, vEnc k s.req.eng = some v → t.resp.r16 = v) ∧
    (∀ i, vCombOf k = some i → ∃ t, exec i s = .next t ∧
      vComb k s.req.w0 s.req.w1 s.req.w2 = some t.resp.reng))
end

