-- ==== Sys2Proof/Laws/Codec.lean ====
section
/-! SUPPORT. For each shared helper of the codecs, once, everything it can do: byte order, built frames,
rounding ranges, sentinels and combination. -/

namespace Sys2Proof.Machine

/-! ### Byte order (R44) -/

@[simp] theorem hi8_be16 (a b : Byte) : hi8 (be16 a b) = a := by
  apply BitVec.eq_of_getLsbD_eq
  intro i hi
  show (BitVec.extractLsb' 8 8 (a ++ b : BitVec (8 + 8))).getLsbD i = a.getLsbD i
  rw [BitVec.getLsbD_extractLsb', BitVec.getLsbD_append]
  simp [hi]

@[simp] theorem lo8_be16 (a b : Byte) : lo8 (be16 a b) = b := by
  apply BitVec.eq_of_getLsbD_eq
  intro i hi
  show (BitVec.extractLsb' 0 8 (a ++ b : BitVec (8 + 8))).getLsbD i = b.getLsbD i
  rw [BitVec.getLsbD_extractLsb', BitVec.getLsbD_append]
  simp [hi]

@[simp] theorem be16_hi8_lo8 (v : Word16) : be16 (hi8 v) (lo8 v) = v := by
  apply BitVec.eq_of_getLsbD_eq
  intro i hi
  show (hi8 v ++ lo8 v : BitVec (8 + 8)).getLsbD i = v.getLsbD i
  rw [BitVec.getLsbD_append]
  by_cases h : i < 8
  · simp [lo8, h]
  · simp [hi8, h, show i - 8 < 8 by omega, show 8 + (i - 8) = i by omega]

@[simp] theorem highNibble_append (r k : Nibble) : highNibble (r ++ k) = r := by
  apply BitVec.eq_of_getLsbD_eq
  intro i hi
  show (BitVec.extractLsb' 4 4 (r ++ k : BitVec (4 + 4))).getLsbD i = r.getLsbD i
  rw [BitVec.getLsbD_extractLsb', BitVec.getLsbD_append]
  simp [hi]

@[simp] theorem lowNibble_append (r k : Nibble) : lowNibble (r ++ k) = k := by
  apply BitVec.eq_of_getLsbD_eq
  intro i hi
  show (BitVec.extractLsb' 0 4 (r ++ k : BitVec (4 + 4))).getLsbD i = k.getLsbD i
  rw [BitVec.getLsbD_extractLsb', BitVec.getLsbD_append]
  simp [hi]

/-- Swapping the bytes twice gives the word back (R11, R130). -/
@[simp] theorem swap16_swap16 (v : Word16) : swap16 (swap16 v) = v := by simp [swap16]

/-! ### Built frames (R96, R97) -/

/-- The eight lanes of a built frame, in order. -/
theorem buildFrame_lanes (c : CanId) (id index value : Word16) :
    (buildFrame c id index value).O.toList =
      [hi8 id, lo8 id, marker, hi8 index, lo8 index, hi8 value, lo8 value, 0] := rfl

/-- The payload of a built frame is the extended form of full length (R61). -/
theorem buildFrame_toFrame (c : CanId) (id index value : Word16) :
    (buildFrame c id index value).toFrame = ⟨c, extendedBytes id index value⟩ := rfl

/-! ### Encode helpers -/

/-- An integer in the range has its pattern, any other none (R123). -/
theorem patternIn_cases (lo hi z : Int) :
    (lo ≤ z ∧ z ≤ hi ∧ patternIn lo hi z = some (u16OfInt z)) ∨
    (¬ (lo ≤ z ∧ z ≤ hi) ∧ patternIn lo hi z = none) := by
  unfold patternIn
  by_cases h : lo ≤ z ∧ z ≤ hi
  · exact .inl ⟨h.1, h.2, if_pos h⟩
  · exact .inr ⟨h, if_neg h⟩

/-- The non-negative residue is the two's-complement pattern (R11). -/
theorem u16OfInt_eq (z : Int) : u16OfInt z = BitVec.ofInt 16 z := by
  apply BitVec.eq_of_toNat_eq
  simp only [u16OfInt, BitVec.toNat_ofNat, BitVec.toNat_ofInt]
  omega

/-- `s16` is the two's-complement reading (R11). -/
theorem s16_eq_toInt (v : Word16) : s16 v = v.toInt := by
  unfold s16
  rw [BitVec.toInt_eq_toNat_cond]
  split <;> split <;> omega

/-! ### Decode helpers: NaN at the sentinel, a number elsewhere (R122) -/

theorem decFixed_cases (n : Nat) (raw : Word16) :
    (raw = noValue ∧ decFixed n raw = .nan) ∨
    (raw ≠ noValue ∧ decFixed n raw = .fin ((s16 raw : Rat) / powTen n)) := by
  unfold decFixed
  by_cases h : raw = noValue
  · exact .inl ⟨h, if_pos h⟩
  · exact .inr ⟨h, if_neg h⟩

theorem decRaw_cases (raw : Word16) :
    (raw = noValue ∧ decRaw raw = .nan) ∨
    (raw ≠ noValue ∧ decRaw raw = .fin ((raw.toNat : Int) : Rat)) := by
  unfold decRaw
  by_cases h : raw = noValue
  · exact .inl ⟨h, if_pos h⟩
  · exact .inr ⟨h, if_neg h⟩

theorem decSwap_cases (raw : Word16) :
    (raw = noValue ∧ decSwap raw = .nan) ∨
    (raw ≠ noValue ∧ decSwap raw = .fin (((swap16 raw).toNat : Int) : Rat)) := by
  unfold decSwap
  by_cases h : raw = noValue
  · exact .inl ⟨h, if_pos h⟩
  · exact .inr ⟨h, if_neg h⟩

/-! ### Combination: NaN exactly when a required word is (R175) -/

theorem combineTwo_cases (a b : Eng) :
    (∃ x y, a = .fin x ∧ b = .fin y ∧ combineTwo a b = .fin (x * 1000 + y)) ∨
    ((a = .nan ∨ b = .nan) ∧ combineTwo a b = .nan) := by
  cases a <;> cases b <;> simp [combineTwo]

theorem combineThree_cases (a b c : Eng) :
    (∃ x y z, a = .fin x ∧ b = .fin y ∧ c = .fin z ∧
      combineThree a b c = .fin (x * 1000000 + y * 1000 + z)) ∨
    ((a = .nan ∨ b = .nan ∨ c = .nan) ∧ combineThree a b c = .nan) := by
  cases a <;> cases b <;> cases c <;> simp [combineThree]

end Sys2Proof.Machine
end

