-- ==== Sys2Proof/Laws/ConcreteFloat.lean ====
section
/-! SUPPORT. What rounding to a concrete format does. -/

namespace Sys2Proof.Machine

/-- A number of the format rounds to itself and to nothing else. -/
theorem roundsTo_iff_of_represents {f : FloatFormat} {q : Rat} (h : representsIn f q) (r : Rat) :
    roundsTo f q r ↔ r = q := by
  constructor
  · rintro ⟨-, hr⟩
    have h0 := hr q h
    rw [sub_self, abs_zero] at h0
    have := abs_eq_zero.mp (le_antisymm h0 (abs_nonneg _))
    linarith
  · rintro rfl
    exact ⟨h, fun x _ => by rw [sub_self, abs_zero]; exact abs_nonneg _⟩

/-- An integer below `2^precision` is a number of a format that has the exponent 0. -/
theorem representsIn_int {f : FloatFormat} (h0 : f.minExponent ≤ 0) (h1 : 0 ≤ maxExponent f) {m : Int}
    (hm : |m| < 2 ^ (f.precision : Nat)) : representsIn f (m : Rat) :=
  ⟨m, 0, hm, h0, h1, by simp⟩

end Sys2Proof.Machine
end

