-- ==== Sys2Proof/Laws/State.lean ====
section
/-! SUPPORT. What each named update of State leaves in each field: true by rfl, tagged simp, so that
no later proof unfolds a record update. -/

namespace Sys2Proof.Machine

variable (s : State) (f : Response → Response) (e : Env) (r : Request) (rest : List Input)

@[simp] theorem State.answered_req : (s.answered f).req = s.req := rfl
@[simp] theorem State.answered_resp :
    (s.answered f).resp = f (Response.unspecified s.draws) := rfl
@[simp] theorem State.answered_env : (s.answered f).env = s.env := rfl
@[simp] theorem State.answered_inputs : (s.answered f).inputs = s.inputs := rfl
@[simp] theorem State.answered_draws : (s.answered f).draws = s.draws + 1 := rfl

@[simp] theorem State.moved_req : (s.moved e).req = s.req := rfl
@[simp] theorem State.moved_resp : (s.moved e).resp = s.resp := rfl
@[simp] theorem State.moved_env : (s.moved e).env = e := rfl
@[simp] theorem State.moved_inputs : (s.moved e).inputs = s.inputs := rfl
@[simp] theorem State.moved_draws : (s.moved e).draws = s.draws + 1 := rfl

@[simp] theorem State.latched_req : (s.latched r).req = r := rfl
@[simp] theorem State.latched_resp : (s.latched r).resp = s.resp := rfl
@[simp] theorem State.latched_env : (s.latched r).env = s.env := rfl
@[simp] theorem State.latched_inputs : (s.latched r).inputs = s.inputs := rfl
@[simp] theorem State.latched_draws : (s.latched r).draws = s.draws := rfl

@[simp] theorem State.awaiting_req : (s.awaiting rest).req = s.req := rfl
@[simp] theorem State.awaiting_resp : (s.awaiting rest).resp = s.resp := rfl
@[simp] theorem State.awaiting_env : (s.awaiting rest).env = s.env := rfl
@[simp] theorem State.awaiting_inputs : (s.awaiting rest).inputs = rest := rfl
@[simp] theorem State.awaiting_draws : (s.awaiting rest).draws = s.draws := rfl

@[simp] theorem Env.send_queue (frame : CanFrame) (ok : Bool) : (e.send frame ok).queue = e.queue := rfl
@[simp] theorem Env.send_sent (frame : CanFrame) (ok : Bool) :
    (e.send frame ok).sent = e.sent ++ [⟨frame, false, ok⟩] := rfl
@[simp] theorem Env.send_readOnly (frame : CanFrame) (ok : Bool) :
    (e.send frame ok).readOnly = e.readOnly := rfl
@[simp] theorem Env.send_writable (frame : CanFrame) (ok : Bool) :
    (e.send frame ok).writable = e.writable := rfl
@[simp] theorem Env.send_timers (frame : CanFrame) (ok : Bool) : (e.send frame ok).timers = e.timers := rfl
@[simp] theorem Env.send_senderId (frame : CanFrame) (ok : Bool) :
    (e.send frame ok).senderId = e.senderId := rfl

@[simp] theorem Watcher.restart_config (w : Watcher) : w.restart.config = w.config := rfl
@[simp] theorem Watcher.restart_failed (w : Watcher) : w.restart.failed = w.failed := rfl
@[simp] theorem Watcher.restart_slots (w : Watcher) : w.restart.slots = Slots.unset := rfl
@[simp] theorem Watcher.restart_lastPublished (w : Watcher) :
    w.restart.lastPublished = w.lastPublished := rfl

@[simp] theorem Watcher.storeWord_config (w : Watcher) (ix v : Word16) (ph : Phase) :
    (w.storeWord ix v ph).config = w.config := rfl
@[simp] theorem Watcher.storeWord_failed (w : Watcher) (ix v : Word16) (ph : Phase) :
    (w.storeWord ix v ph).failed = w.failed := rfl
@[simp] theorem Watcher.storeWord_lastPublished (w : Watcher) (ix v : Word16) (ph : Phase) :
    (w.storeWord ix v ph).lastPublished = w.lastPublished := rfl
@[simp] theorem Watcher.storeWord_phase (w : Watcher) (ix v : Word16) (ph : Phase) :
    (w.storeWord ix v ph).phase = ph := rfl

end Sys2Proof.Machine
end

