-- ==== Sys2Proof/Laws/Ops.lean ====
section
/-! SUPPORT. For each shared operation, once, everything it can do. Provers cite these instead of
unfolding the operation. -/

namespace Sys2Proof.Machine

/-! ### Answering a request -/

@[simp] theorem respond_eq (f : Response → Response) (s : State) : respond f s = .next (s.answered f) :=
  rfl

/-- A response changes the response ports and the draw counter only. -/
theorem answered_onlyPorts (f : Response → Response) (s : State) : OnlyPorts s (s.answered f) :=
  ⟨rfl, rfl, rfl, rfl⟩

/-- If a response is answered, the next state is the answered one. -/
theorem respond_next {f : Response → Response} {s t : State} (h : respond f s = .next t) :
    t = s.answered f := by cases h; rfl

@[simp] theorem respondR16_eq (v : Word16) (s : State) :
    respondR16 v s = .next (s.answered fun r => { r with r16 := v }) := rfl

@[simp] theorem respondEng_eq (e : Eng) (s : State) :
    respondEng e s = .next (s.answered fun r => { r with reng := e }) := rfl

@[simp] theorem respondRcv_eq (v : Word16) (s : State) :
    respondRcv v s = .next (s.answered fun r => { r with rcv := v }) := rfl

@[simp] theorem respondDecoded_eq (d : Decoded) (s : State) :
    respondDecoded d s = .next (s.answered fun r => { r with
      knib := d.knib, kclass := d.kclass, confirm := d.confirm,
      rindex := d.rindex, rvalue := d.rvalue, rcv := d.rcv }) := rfl

@[simp] theorem respondFrame_eq (f : BuiltFrame) (s : State) :
    respondFrame f s =
      .next (s.answered fun r => { r with canId := f.canId, O := f.O, olen := f.olen }) := rfl

@[simp] theorem respondEncoded_eq (v : Option Word16) (s : State) :
    respondEncoded v s = .next (s.answered fun r => { r with r16 := encodedOr s.draws v }) := rfl

@[simp] theorem encodedOr_some (n : Nat) (v : Word16) : encodedOr n (some v) = v := rfl

/-! ### The presented payload -/

/-- A payload of legal length reaches the operation. -/
theorem withPayload_of_le {s : State} {f : List Byte → Result} (h : s.req.len.toNat ≤ 8) :
    withPayload s f = f s.req.bytes := if_pos h

/-- A payload length of 9 to 15 is refused. -/
theorem withPayload_of_gt {s : State} {f : List Byte → Result} (h : 8 < s.req.len.toNat) :
    withPayload s f = .refused (.payloadLength s.req.len.toNat) := if_neg (by omega)

theorem withBytes_of_le {p : List Byte} {f : List Byte → Result} (h : p.length ≤ 8) :
    withBytes p f = f p := if_pos h

theorem withBytes_of_gt {p : List Byte} {f : List Byte → Result} (h : 8 < p.length) :
    withBytes p f = .refused (.payloadLength p.length) := if_neg (by omega)

/-- The presented payload has as many bytes as `len` says, when that is legal. -/
theorem bytes_length {r : Request} (h : r.len.toNat ≤ 8) : r.bytes.length = r.len.toNat := by
  simp [Request.bytes, h]

/-- A present byte of the presented payload is its lane (R40). -/
theorem byteAt_bytes {r : Request} {i : Nat} (hi : i < r.len.toNat) (h8 : r.len.toNat ≤ 8) :
    byteAt r.bytes i = r.B[i]'(by omega) := by
  have hl : i < r.bytes.length := by rw [bytes_length h8]; exact hi
  rw [byteAt, List.getD_eq_getElem _ _ hl]
  simp [Request.bytes]

/-! ### The step -/

/-- Everything a step can do, by the next input. -/
theorem step_cases (s : State) :
    (s.inputs = [] ∧ step s = .next s) ∨
    (∃ r rest, s.inputs = .request r :: rest ∧ step s = serve r (s.awaiting rest)) ∨
    (∃ canId x rtr p rest, s.inputs = .receive canId x rtr p :: rest ∧
      step s = receiveEvent canId p (s.awaiting rest)) ∨
    (∃ e rest, step s = .next ((s.awaiting rest).moved e) ∧
      ((∃ ok, s.inputs = .tick ok :: rest ∧ e = s.env.drain ok) ∨
       (∃ k, s.inputs = .timerFires k :: rest ∧ e = s.env.fireTimer k) ∨
       (∃ k, s.inputs = .timerCancelled k :: rest ∧ e = s.env.cancelTimer k) ∨
       (∃ w, s.inputs = .poll w :: rest ∧ e = s.env.beginReadCycle w) ∨
       (∃ k q ok, s.inputs = .control k q ok :: rest ∧
         e = s.env.controlWatcher k q ok s.draws))) := by
  rcases h : s.inputs with _ | ⟨i, rest⟩
  · exact .inl ⟨rfl, by simp [step, h]⟩
  · cases i with
    | request r => exact .inr (.inl ⟨r, rest, rfl, by simp [step, h]⟩)
    | receive c x y p => exact .inr (.inr (.inl ⟨c, x, y, p, rest, rfl, by simp [step, h]⟩))
    | tick ok =>
      exact .inr (.inr (.inr ⟨_, rest, by simp [step, h, tickEvent, moveEnv], .inl ⟨ok, rfl, rfl⟩⟩))
    | timerFires k =>
      exact .inr (.inr (.inr ⟨_, rest, by simp [step, h, timerEvent, moveEnv],
        .inr (.inl ⟨k, rfl, rfl⟩)⟩))
    | timerCancelled k =>
      exact .inr (.inr (.inr ⟨_, rest, by simp [step, h, cancelEvent, moveEnv],
        .inr (.inr (.inl ⟨k, rfl, rfl⟩))⟩))
    | poll w =>
      exact .inr (.inr (.inr ⟨_, rest, by simp [step, h, pollEvent, moveEnv],
        .inr (.inr (.inr (.inl ⟨w, rfl, rfl⟩)))⟩))
    | control k q ok =>
      exact .inr (.inr (.inr ⟨_, rest, by simp [step, h, controlEvent, moveEnv],
        .inr (.inr (.inr (.inr ⟨k, q, ok, rfl, rfl⟩)))⟩))

end Sys2Proof.Machine
end

