-- ==== Sys2Proof/Laws/Environment.lean ====
section
/-! SUPPORT. For each shared operation of the environment, once, everything it can do. -/

namespace Sys2Proof.Machine

/-- A frame a watcher does not match, or a disabled watcher, changes nothing and publishes nothing
(R203, R207). -/
theorem onFrame_of_not {w : Watcher} {c : CanId} {ix v : Word16} {ph : Phase}
    (h : (w.enabled && w.matchesFrame c ix) = false) : w.onFrame c ix v ph = (w, none) := by
  simp [Watcher.onFrame, h]

/-- Everything `onFrame` can do (R203 to R205). -/
theorem onFrame_cases (w : Watcher) (c : CanId) (ix v : Word16) (ph : Phase) :
    w.onFrame c ix v ph = (w, none) ∨
    (w.enabled = true ∧ w.matchesFrame c ix = true ∧ wordCount w.config.encoding = 1 ∧
      w.onFrame c ix v ph = w.takeValue v) ∨
    (w.enabled = true ∧ w.matchesFrame c ix = true ∧ wordCount w.config.encoding ≠ 1 ∧
      w.onFrame c ix v ph = w.takeWord ix v ph) := by
  unfold Watcher.onFrame
  by_cases h : w.enabled = true ∧ w.matchesFrame c ix = true
  · by_cases h1 : wordCount w.config.encoding = 1
    · exact .inr (.inl ⟨h.1, h.2, h1, by simp [h.1, h.2, h1]⟩)
    · exact .inr (.inr ⟨h.1, h.2, h1, by simp [h.1, h.2, h1]⟩)
  · exact .inl (by rw [if_neg]; simpa using h)

/-- Everything `takeWord` can do (R205): the word is stored; a finite combination is published. -/
theorem takeWord_cases (w : Watcher) (ix v : Word16) (ph : Phase) :
    (∃ q, (w.storeWord ix v ph).slots.combine w.config.encoding = some (.fin q) ∧
      w.takeWord ix v ph =
        ({ w.storeWord ix v ph with lastPublished := some (.fin q) }, some (.fin q))) ∨
    w.takeWord ix v ph = (w.storeWord ix v ph, none) := by
  unfold Watcher.takeWord
  dsimp only [Watcher.storeWord_config]
  split
  · rename_i q hq
    exact .inl ⟨q, hq, rfl⟩
  · exact .inr rfl
  · exact .inr rfl

/-- A frame never changes a watcher's configuration or its mark (R191, R207). -/
theorem onFrame_setup (w : Watcher) (c : CanId) (ix v : Word16) (ph : Phase) :
    (w.onFrame c ix v ph).1.config = w.config ∧ (w.onFrame c ix v ph).1.failed = w.failed := by
  rcases onFrame_cases w c ix v ph with h | ⟨-, -, -, h⟩ | ⟨-, -, -, h⟩
  · simp [h]
  · simp [h, Watcher.takeValue]
  · rcases takeWord_cases w ix v ph with ⟨q, -, h'⟩ | h' <;> simp [h, h']

/-- What a watcher publishes does not depend on the phase it is given. -/
theorem onFrame_published (w : Watcher) (c : CanId) (ix v : Word16) (ph ph' : Phase) :
    (w.onFrame c ix v ph).2 = (w.onFrame c ix v ph').2 := by
  unfold Watcher.onFrame Watcher.takeWord Watcher.takeValue Watcher.storeWord
  split
  · split
    · rfl
    · dsimp only
      split <;> rfl
  · rfl

@[simp] theorem offerWatchers_length (wr : Bool) (n : Nat) (c : CanId) (ix v : Word16) (k : Nat)
    (ws : List Watcher) : (offerWatchers wr n c ix v k ws).length = ws.length := by
  induction ws generalizing k with
  | nil => rfl
  | cons w ws ih => simp [offerWatchers, ih]

/-- Offering a frame to a registry acts on each watcher by itself (R202). -/
theorem offerWatchers_getElem? (wr : Bool) (n : Nat) (c : CanId) (ix v : Word16) (k i : Nat)
    (ws : List Watcher) :
    (offerWatchers wr n c ix v k ws)[i]? =
      ws[i]?.map fun w => (w.onFrame c ix v (Config.anyPhase n wr (k + i))).1 := by
  induction ws generalizing k i with
  | nil => simp [offerWatchers]
  | cons w ws ih =>
    cases i with
    | zero => simp [offerWatchers]
    | succ i => simp [offerWatchers, ih, Nat.add_comm, Nat.add_left_comm]

/-- What a registry publishes for one frame: each watcher speaks for itself (R202, R212). -/
theorem mem_offerPublished (reg : Registry) (c : CanId) (ix v : Word16) (ws : List Watcher) :
    ∀ (k : Nat) (pub : Publication), pub ∈ offerPublished reg c ix v k ws ↔
      ∃ i w, ws[i]? = some w ∧ pub.watcher = ⟨reg, k + i⟩ ∧
        (w.onFrame c ix v .idle).2 = some pub.value := by
  induction ws with
  | nil => intro k pub; simp [offerPublished]
  | cons w ws ih =>
    intro k pub
    have key : pub ∈ offerPublished reg c ix v k (w :: ws) ↔
        (pub.watcher = ⟨reg, k⟩ ∧ (w.onFrame c ix v .idle).2 = some pub.value) ∨
          pub ∈ offerPublished reg c ix v (k + 1) ws := by
      obtain ⟨a, b⟩ := pub
      rw [offerPublished]
      dsimp only
      split
      · rename_i e he
        rw [he]
        simp [eq_comm]
      · rename_i he
        rw [he]
        simp
    rw [key, ih]
    constructor
    · rintro (⟨a, b⟩ | ⟨i, w', a, b, c⟩)
      · exact ⟨0, w, rfl, a, b⟩
      · exact ⟨i + 1, w', by simpa using a, by rw [b]; congr 1; omega, c⟩
    · rintro ⟨i, w', a, b, c⟩
      cases i with
      | zero =>
        simp only [List.getElem?_cons_zero, Option.some.injEq] at a
        subst a
        exact .inl ⟨b, c⟩
      | succ i => exact .inr ⟨i, w', by simpa using a, by rw [b]; congr 1; omega, c⟩

/-- The order of the two registries does not matter to what is published. -/
theorem mem_inSomeOrder (n : Nat) (a b : List Publication) (pub : Publication) :
    pub ∈ inSomeOrder n a b ↔ pub ∈ a ∨ pub ∈ b := by
  unfold inSomeOrder
  split <;> simp [or_comm]

/-- Everything `beginReadCycle` can do (R197, R207). -/
theorem beginReadCycle_cases (e : Env) (r : WatcherRef) :
    e.beginReadCycle r = e ∨
    ∃ w, e.watcher? r = some w ∧ w.failed = false ∧
      e.beginReadCycle r = { e.modifyWatcher r Watcher.restart with
        queue := e.queue ++ readRequests e.senderId w.config } := by
  unfold Env.beginReadCycle
  split
  · exact .inl rfl
  · rename_i w hw
    by_cases h : w.failed = true
    · exact .inl (by simp [Watcher.enabled, h])
    · exact .inr ⟨w, hw, by simpa using h, by simp [Watcher.enabled, h]⟩

/-- Everything `control` can do (R206, R207). -/
theorem controlWatcher_cases (e : Env) (k : Nat) (q : Rat) (ok : Bool) (n : Nat) :
    e.controlWatcher k q ok n = e ∨
    ∃ w, e.writable[k]? = some w ∧ w.failed = false ∧
      e.controlWatcher k q ok n = { e.send (buildWr w.config.encoding e.senderId
          w.config.target.numericAddress w.config.elsterIndex (.fin q) n).toFrame ok with
        timers := e.timers ++ [⟨e.settleDelayMs, ⟨.writable, k⟩⟩] } := by
  unfold Env.controlWatcher
  split
  · exact .inl rfl
  · rename_i w hw
    by_cases h : w.failed = true
    · exact .inl (by simp [Watcher.enabled, h])
    · exact .inr ⟨w, hw, by simpa using h, by simp [Watcher.enabled, h]⟩

/-- A confirmed frame is dispatched; any other is only logged (R200, R201). -/
theorem receiveFrame_eq (e : Env) (c : CanId) (p : List Byte) (n : Nat) :
    e.receiveFrame c p n =
      if confirmOf p then
        { e with logged := e.logged ++ [logEntry c p] : Env }.dispatch c (decodeFrame p) n
      else { e with logged := e.logged ++ [logEntry c p] } := rfl

end Sys2Proof.Machine
end

