-- ==== Sys2Proof/Laws/Exec.lean ====
section
/-! SUPPORT. The arms of exec, one equation per instruction, and once everything exec can do: it answers
with a response, or refuses a payload that is too long. -/

namespace Sys2Proof.Machine

section Arms

variable (s : State)

@[simp] theorem exec_fdec : exec .fdec s = execFdec s := rfl
@[simp] theorem exec_fencRd : exec .fencRd s = execFencRd s := rfl
@[simp] theorem exec_fencWr : exec .fencWr s = execFencWr s := rfl
@[simp] theorem exec_aWid : exec .aWid s = execAWid s := rfl
@[simp] theorem exec_aRid : exec .aRid s = execARid s := rfl
@[simp] theorem exec_aRsp : exec .aRsp s = execARsp s := rfl
@[simp] theorem exec_aRcv : exec .aRcv s = execARcv s := rfl
@[simp] theorem exec_vEncDefaultRaw : exec .vEncDefaultRaw s = respondEncoded (vEnc .defaultRaw s.req.eng) s := rfl
@[simp] theorem exec_vEncDec1 : exec .vEncDec1 s = respondEncoded (vEnc .dec1 s.req.eng) s := rfl
@[simp] theorem exec_vEncDec2 : exec .vEncDec2 s = respondEncoded (vEnc .dec2 s.req.eng) s := rfl
@[simp] theorem exec_vEncDec3 : exec .vEncDec3 s = respondEncoded (vEnc .dec3 s.req.eng) s := rfl
@[simp] theorem exec_vEncByte : exec .vEncByte s = respondEncoded (vEnc .byte s.req.eng) s := rfl
@[simp] theorem exec_vEncBool : exec .vEncBool s = respondEncoded (vEnc .bool s.req.eng) s := rfl
@[simp] theorem exec_vEncLeBool : exec .vEncLeBool s = respondEncoded (vEnc .leBool s.req.eng) s := rfl
@[simp] theorem exec_vEncDouble : exec .vEncDouble s = respondEncoded (vEnc .double s.req.eng) s := rfl
@[simp] theorem exec_vEncTriple : exec .vEncTriple s = respondEncoded (vEnc .triple s.req.eng) s := rfl
@[simp] theorem exec_vEncInvDouble : exec .vEncInvDouble s = respondEncoded (vEnc .invDouble s.req.eng) s := rfl
@[simp] theorem exec_vEncInvTriple : exec .vEncInvTriple s = respondEncoded (vEnc .invTriple s.req.eng) s := rfl
@[simp] theorem exec_vEncLe16 : exec .vEncLe16 s = respondEncoded (vEnc .le16 s.req.eng) s := rfl
@[simp] theorem exec_vEncMode : exec .vEncMode s = respondEncoded (vEnc .mode s.req.eng) s := rfl
@[simp] theorem exec_vEncTime : exec .vEncTime s = respondEncoded (vEnc .time s.req.eng) s := rfl
@[simp] theorem exec_vEncDate : exec .vEncDate s = respondEncoded (vEnc .date s.req.eng) s := rfl
@[simp] theorem exec_vEncDomain : exec .vEncDomain s = respondEncoded (vEnc .domain s.req.eng) s := rfl
@[simp] theorem exec_vEncDevnum : exec .vEncDevnum s = respondEncoded (vEnc .devnum s.req.eng) s := rfl
@[simp] theorem exec_vEncErrnum : exec .vEncErrnum s = respondEncoded (vEnc .errnum s.req.eng) s := rfl
@[simp] theorem exec_vEncDevid : exec .vEncDevid s = respondEncoded (vEnc .devid s.req.eng) s := rfl
@[simp] theorem exec_vDecDefaultRaw : exec .vDecDefaultRaw s = respondEng (vDec .defaultRaw s.req.raw) s := rfl
@[simp] theorem exec_vDecDec1 : exec .vDecDec1 s = respondEng (vDec .dec1 s.req.raw) s := rfl
@[simp] theorem exec_vDecDec2 : exec .vDecDec2 s = respondEng (vDec .dec2 s.req.raw) s := rfl
@[simp] theorem exec_vDecDec3 : exec .vDecDec3 s = respondEng (vDec .dec3 s.req.raw) s := rfl
@[simp] theorem exec_vDecByte : exec .vDecByte s = respondEng (vDec .byte s.req.raw) s := rfl
@[simp] theorem exec_vDecBool : exec .vDecBool s = respondEng (vDec .bool s.req.raw) s := rfl
@[simp] theorem exec_vDecLeBool : exec .vDecLeBool s = respondEng (vDec .leBool s.req.raw) s := rfl
@[simp] theorem exec_vDecDouble : exec .vDecDouble s = respondEng (vDec .double s.req.raw) s := rfl
@[simp] theorem exec_vDecTriple : exec .vDecTriple s = respondEng (vDec .triple s.req.raw) s := rfl
@[simp] theorem exec_vDecInvDouble : exec .vDecInvDouble s = respondEng (vDec .invDouble s.req.raw) s := rfl
@[simp] theorem exec_vDecInvTriple : exec .vDecInvTriple s = respondEng (vDec .invTriple s.req.raw) s := rfl
@[simp] theorem exec_vDecLe16 : exec .vDecLe16 s = respondEng (vDec .le16 s.req.raw) s := rfl
@[simp] theorem exec_vDecMode : exec .vDecMode s = respondEng (vDec .mode s.req.raw) s := rfl
@[simp] theorem exec_vDecTime : exec .vDecTime s = respondEng (vDec .time s.req.raw) s := rfl
@[simp] theorem exec_vDecDate : exec .vDecDate s = respondEng (vDec .date s.req.raw) s := rfl
@[simp] theorem exec_vDecDomain : exec .vDecDomain s = respondEng (vDec .domain s.req.raw) s := rfl
@[simp] theorem exec_vDecDevnum : exec .vDecDevnum s = respondEng (vDec .devnum s.req.raw) s := rfl
@[simp] theorem exec_vDecErrnum : exec .vDecErrnum s = respondEng (vDec .errnum s.req.raw) s := rfl
@[simp] theorem exec_vDecDevid : exec .vDecDevid s = respondEng (vDec .devid s.req.raw) s := rfl
@[simp] theorem exec_vCombDouble : exec .vCombDouble s = execVCombDouble s := rfl
@[simp] theorem exec_vCombTriple : exec .vCombTriple s = execVCombTriple s := rfl
@[simp] theorem exec_vCombInvDouble : exec .vCombInvDouble s = execVCombInvDouble s := rfl
@[simp] theorem exec_vCombInvTriple : exec .vCombInvTriple s = execVCombInvTriple s := rfl

@[simp] theorem exec_frameExt (r k : Nibble) (l : Byte) (ix v : Word16) :
    exec (.frameExt r k l ix v) s = execFrameExt r k l ix v s := rfl
@[simp] theorem exec_frameShort (r k : Nibble) (l ix : Byte) (rest : List Byte) :
    exec (.frameShort r k l ix rest) s = execFrameShort r k l ix rest s := rfl
@[simp] theorem exec_frameRd (a : Addr) (ix : Word16) :
    exec (.frameRd a ix) s = execFrameRd a ix s := rfl
@[simp] theorem exec_frameWr (a : Addr) (ix v : Word16) :
    exec (.frameWr a ix v) s = execFrameWr a ix v s := rfl
@[simp] theorem exec_id16 (a : Addr) (x : IdTag) : exec (.id16 a x) s = execId16 a x s := rfl

end Arms

/-- FDEC on a payload of legal length. -/
theorem execFdec_of_le {s : State} (h : s.req.len.toNat ≤ 8) :
    execFdec s = respondDecoded (decodeFrame s.req.bytes) s := withPayload_of_le h

/-- A.RCV on a payload of legal length. -/
theorem execARcv_of_le {s : State} (h : s.req.len.toNat ≤ 8) :
    execARcv s = respondRcv (receiverOf s.req.bytes) s := withPayload_of_le h

/-- FRAME.EXT always has a payload of 7 bytes. -/
theorem execFrameExt_eq (r k : Nibble) (l : Byte) (ix v : Word16) (s : State) :
    execFrameExt r k l ix v s = respondDecoded (decodeFrame (frameExtBytes r k l ix v)) s := rfl

/-- FRAME.SHORT on a payload of at most 8 bytes. -/
theorem execFrameShort_of_le {rest : List Byte} (h : rest.length ≤ 5) (r k : Nibble) (l ix : Byte)
    (s : State) :
    execFrameShort r k l ix rest s = respondDecoded (decodeFrame (frameShortBytes r k l ix rest)) s :=
  withBytes_of_le (by simp [frameShortBytes]; omega)

/-- V.ENC of a kind, as one equation over the kinds (R120). -/
theorem exec_vEncOf (k : Kind) (s : State) :
    exec (vEncOf k) s = respondEncoded (vEnc k s.req.eng) s := by cases k <;> rfl

/-- V.DEC of a kind, as one equation over the kinds (R120). -/
theorem exec_vDecOf (k : Kind) (s : State) :
    exec (vDecOf k) s = respondEng (vDec k s.req.raw) s := by cases k <;> rfl

/-- The id operations, as one equation over the tags. -/
theorem exec_idInstr (x : IdTag) (s : State) :
    exec (idInstr x) s = respondR16 (idOf x s.req.addr) s := by cases x <;> rfl

/-- Whether an instruction reads the payload port or carries a payload of open length. -/
def readsPayload : Instr → Bool
  | .fdec => true
  | .aRcv => true
  | .frameShort _ _ _ _ _ => true
  | _ => false

/-- An instruction that reads no payload of open length always answers. -/
theorem exec_answers {i : Instr} (h : readsPayload i = false) (s : State) :
    ∃ f, exec i s = .next (s.answered f) := by
  cases i <;> first | exact ⟨_, rfl⟩ | exact absurd h (by simp [readsPayload])

/-- Everything exec can do. -/
theorem exec_cases (i : Instr) (s : State) :
    (∃ f, exec i s = .next (s.answered f)) ∨
    (readsPayload i = true ∧ ∃ n, 8 < n ∧ exec i s = .refused (.payloadLength n)) := by
  cases hp : readsPayload i with
  | false => exact .inl (exec_answers hp s)
  | true =>
    cases i with
    | fdec =>
      by_cases h : s.req.len.toNat ≤ 8
      · exact .inl ⟨_, by rw [exec_fdec, execFdec_of_le h]; rfl⟩
      · have h' : 8 < s.req.len.toNat := by omega
        exact .inr ⟨rfl, _, h', by rw [exec_fdec, execFdec]; exact withPayload_of_gt h'⟩
    | aRcv =>
      by_cases h : s.req.len.toNat ≤ 8
      · exact .inl ⟨_, by rw [exec_aRcv, execARcv_of_le h]; rfl⟩
      · have h' : 8 < s.req.len.toNat := by omega
        exact .inr ⟨rfl, _, h', by rw [exec_aRcv, execARcv]; exact withPayload_of_gt h'⟩
    | frameShort r k l ix rest =>
      by_cases h : rest.length ≤ 5
      · exact .inl ⟨_, by rw [exec_frameShort, execFrameShort_of_le h]; rfl⟩
      · have h' : 8 < (frameShortBytes r k l ix rest).length := by simp [frameShortBytes]; omega
        exact .inr ⟨rfl, _, h', by rw [exec_frameShort, execFrameShort]; exact withBytes_of_gt h'⟩
    | _ => simp [readsPayload] at hp

/-- If exec answers a next state, only the ports changed. -/
theorem exec_onlyPorts {i : Instr} {s t : State} (h : exec i s = .next t) : OnlyPorts s t := by
  rcases exec_cases i s with ⟨f, hf⟩ | ⟨-, n, -, hf⟩
  · rw [hf] at h
    cases h
    exact answered_onlyPorts f s
  · rw [hf] at h
    cases h

end Sys2Proof.Machine
end

