-- ==== Sys2Proof/Laws/PerInstr.lean ====
section
/-! SUPPORT. Families of statements about every instruction, one lemma per constructor. -/

namespace Sys2Proof.Laws

/-- The bytes of a presented payload; a command word or an identifier has none. -/
def payloadOf : Presented → List Byte
  | .command _ => []
  | .received p => p
  | .built p => p
  | .identifier _ => []

namespace PayloadBound

/-- The payload that a well-formed instruction encodes to fits a CAN frame (R43: at most 8 bytes; R61,
R62, R69: at most 7). -/
def Statement (i : Instr) : Prop := i.WellFormed → (payloadOf (encode i)).length ≤ 7

theorem fdec : Statement .fdec := fun _ => Nat.zero_le 7
theorem fencRd : Statement .fencRd := fun _ => Nat.zero_le 7
theorem fencWr : Statement .fencWr := fun _ => Nat.zero_le 7
theorem aWid : Statement .aWid := fun _ => Nat.zero_le 7
theorem aRid : Statement .aRid := fun _ => Nat.zero_le 7
theorem aRsp : Statement .aRsp := fun _ => Nat.zero_le 7
theorem aRcv : Statement .aRcv := fun _ => Nat.zero_le 7
theorem vEncDefaultRaw : Statement .vEncDefaultRaw := fun _ => Nat.zero_le 7
theorem vEncDec1 : Statement .vEncDec1 := fun _ => Nat.zero_le 7
theorem vEncDec2 : Statement .vEncDec2 := fun _ => Nat.zero_le 7
theorem vEncDec3 : Statement .vEncDec3 := fun _ => Nat.zero_le 7
theorem vEncByte : Statement .vEncByte := fun _ => Nat.zero_le 7
theorem vEncBool : Statement .vEncBool := fun _ => Nat.zero_le 7
theorem vEncLeBool : Statement .vEncLeBool := fun _ => Nat.zero_le 7
theorem vEncDouble : Statement .vEncDouble := fun _ => Nat.zero_le 7
theorem vEncTriple : Statement .vEncTriple := fun _ => Nat.zero_le 7
theorem vEncInvDouble : Statement .vEncInvDouble := fun _ => Nat.zero_le 7
theorem vEncInvTriple : Statement .vEncInvTriple := fun _ => Nat.zero_le 7
theorem vEncLe16 : Statement .vEncLe16 := fun _ => Nat.zero_le 7
theorem vEncMode : Statement .vEncMode := fun _ => Nat.zero_le 7
theorem vEncTime : Statement .vEncTime := fun _ => Nat.zero_le 7
theorem vEncDate : Statement .vEncDate := fun _ => Nat.zero_le 7
theorem vEncDomain : Statement .vEncDomain := fun _ => Nat.zero_le 7
theorem vEncDevnum : Statement .vEncDevnum := fun _ => Nat.zero_le 7
theorem vEncErrnum : Statement .vEncErrnum := fun _ => Nat.zero_le 7
theorem vEncDevid : Statement .vEncDevid := fun _ => Nat.zero_le 7
theorem vDecDefaultRaw : Statement .vDecDefaultRaw := fun _ => Nat.zero_le 7
theorem vDecDec1 : Statement .vDecDec1 := fun _ => Nat.zero_le 7
theorem vDecDec2 : Statement .vDecDec2 := fun _ => Nat.zero_le 7
theorem vDecDec3 : Statement .vDecDec3 := fun _ => Nat.zero_le 7
theorem vDecByte : Statement .vDecByte := fun _ => Nat.zero_le 7
theorem vDecBool : Statement .vDecBool := fun _ => Nat.zero_le 7
theorem vDecLeBool : Statement .vDecLeBool := fun _ => Nat.zero_le 7
theorem vDecDouble : Statement .vDecDouble := fun _ => Nat.zero_le 7
theorem vDecTriple : Statement .vDecTriple := fun _ => Nat.zero_le 7
theorem vDecInvDouble : Statement .vDecInvDouble := fun _ => Nat.zero_le 7
theorem vDecInvTriple : Statement .vDecInvTriple := fun _ => Nat.zero_le 7
theorem vDecLe16 : Statement .vDecLe16 := fun _ => Nat.zero_le 7
theorem vDecMode : Statement .vDecMode := fun _ => Nat.zero_le 7
theorem vDecTime : Statement .vDecTime := fun _ => Nat.zero_le 7
theorem vDecDate : Statement .vDecDate := fun _ => Nat.zero_le 7
theorem vDecDomain : Statement .vDecDomain := fun _ => Nat.zero_le 7
theorem vDecDevnum : Statement .vDecDevnum := fun _ => Nat.zero_le 7
theorem vDecErrnum : Statement .vDecErrnum := fun _ => Nat.zero_le 7
theorem vDecDevid : Statement .vDecDevid := fun _ => Nat.zero_le 7
theorem vCombDouble : Statement .vCombDouble := fun _ => Nat.zero_le 7
theorem vCombTriple : Statement .vCombTriple := fun _ => Nat.zero_le 7
theorem vCombInvDouble : Statement .vCombInvDouble := fun _ => Nat.zero_le 7
theorem vCombInvTriple : Statement .vCombInvTriple := fun _ => Nat.zero_le 7
theorem frameExt (r k : Nibble) (l : Byte) (ix v : Word16) : Statement (.frameExt r k l ix v) :=
  fun _ => Nat.le_refl 7
theorem frameShort (r k : Nibble) (l ix : Byte) (rest : List Byte) :
    Statement (.frameShort r k l ix rest) := by
  intro h
  have h' : rest.length ≤ 4 := by
    have := (Bool.and_eq_true _ _).mp h
    simpa using this.2
  simp [encode, payloadOf, frameShortBytes]
  omega
theorem frameRd (a : Addr) (ix : Word16) : Statement (.frameRd a ix) := fun _ => Nat.le_refl 7
theorem frameWr (a : Addr) (ix v : Word16) : Statement (.frameWr a ix v) := fun _ => Nat.le_refl 7
theorem id16 (a : Addr) (x : IdTag) : Statement (.id16 a x) := fun _ => Nat.zero_le 7

end PayloadBound

end Sys2Proof.Laws
end

