-- ==== Sys2Proof/Tests/Slice0.lean ====
section
/-! SUPPORT. Tests: ill-formed terms refused, the decoding of a word of every constructor (bits from
spec/30_encoding.md R71 to R75 and the table's wire rows), single steps with the results of
spec/95_test_vectors.md (its tables named in the docstrings), and witnesses that the hypotheses of the
obligations can be met. -/

namespace Sys2Proof.Tests

open Sys2Proof Sys2Proof.Machine

set_option Elab.async false

/-! ## WellFormed -/

/-- R62: the marker byte is no short index. -/
theorem test_wf_refuses_marker_index :
    (Instr.frameShort 3 2 0 0xFA [0x01, 0x2C]).wf = false := by decide

/-- R62: a short form has at most 7 bytes. -/
theorem test_wf_refuses_eight_bytes :
    (Instr.frameShort 3 2 0 0x0B [0x01, 0x2C, 0x55, 0x66, 0x77]).wf = false := by decide

/-- R62: 7 bytes are allowed. -/
theorem test_wf_admits_seven_bytes :
    (Instr.frameShort 3 2 0 0x0B [0x01, 0x2C, 0x55, 0x66]).wf = true := by decide

/-! ## Decoding: one word for each constructor, `op` in bits 8:5 and `kind` in bits 4:0 -/

theorem test_decode_fdec : decodeTableWord 16 0b000100000 = some .fdec := by decide

theorem test_decode_fencRd : decodeTableWord 16 0b001000000 = some .fencRd := by decide

theorem test_decode_fencWr : decodeTableWord 16 0b001100000 = some .fencWr := by decide

theorem test_decode_aWid : decodeTableWord 16 0b010000000 = some .aWid := by decide

theorem test_decode_aRid : decodeTableWord 16 0b010100000 = some .aRid := by decide

theorem test_decode_aRsp : decodeTableWord 16 0b011000000 = some .aRsp := by decide

theorem test_decode_aRcv : decodeTableWord 16 0b011100000 = some .aRcv := by decide

theorem test_decode_vEncDefaultRaw : decodeTableWord 16 0b100000000 = some .vEncDefaultRaw := by decide

theorem test_decode_vEncDec1 : decodeTableWord 16 0b100000001 = some .vEncDec1 := by decide

theorem test_decode_vEncDec2 : decodeTableWord 16 0b100000010 = some .vEncDec2 := by decide

theorem test_decode_vEncDec3 : decodeTableWord 16 0b100000011 = some .vEncDec3 := by decide

theorem test_decode_vEncByte : decodeTableWord 16 0b100000100 = some .vEncByte := by decide

theorem test_decode_vEncBool : decodeTableWord 16 0b100000101 = some .vEncBool := by decide

theorem test_decode_vEncLeBool : decodeTableWord 16 0b100000110 = some .vEncLeBool := by decide

theorem test_decode_vEncDouble : decodeTableWord 16 0b100000111 = some .vEncDouble := by decide

theorem test_decode_vEncTriple : decodeTableWord 16 0b100001000 = some .vEncTriple := by decide

theorem test_decode_vEncInvDouble : decodeTableWord 16 0b100001001 = some .vEncInvDouble := by decide

theorem test_decode_vEncInvTriple : decodeTableWord 16 0b100001010 = some .vEncInvTriple := by decide

theorem test_decode_vEncLe16 : decodeTableWord 16 0b100001011 = some .vEncLe16 := by decide

theorem test_decode_vEncMode : decodeTableWord 16 0b100001100 = some .vEncMode := by decide

theorem test_decode_vEncTime : decodeTableWord 16 0b100001101 = some .vEncTime := by decide

theorem test_decode_vEncDate : decodeTableWord 16 0b100001110 = some .vEncDate := by decide

theorem test_decode_vEncDomain : decodeTableWord 16 0b100001111 = some .vEncDomain := by decide

theorem test_decode_vEncDevnum : decodeTableWord 16 0b100010000 = some .vEncDevnum := by decide

theorem test_decode_vEncErrnum : decodeTableWord 16 0b100010001 = some .vEncErrnum := by decide

theorem test_decode_vEncDevid : decodeTableWord 16 0b100010010 = some .vEncDevid := by decide

theorem test_decode_vDecDefaultRaw : decodeTableWord 16 0b100100000 = some .vDecDefaultRaw := by decide

theorem test_decode_vDecDec1 : decodeTableWord 16 0b100100001 = some .vDecDec1 := by decide

theorem test_decode_vDecDec2 : decodeTableWord 16 0b100100010 = some .vDecDec2 := by decide

theorem test_decode_vDecDec3 : decodeTableWord 16 0b100100011 = some .vDecDec3 := by decide

theorem test_decode_vDecByte : decodeTableWord 16 0b100100100 = some .vDecByte := by decide

theorem test_decode_vDecBool : decodeTableWord 16 0b100100101 = some .vDecBool := by decide

theorem test_decode_vDecLeBool : decodeTableWord 16 0b100100110 = some .vDecLeBool := by decide

theorem test_decode_vDecDouble : decodeTableWord 16 0b100100111 = some .vDecDouble := by decide

theorem test_decode_vDecTriple : decodeTableWord 16 0b100101000 = some .vDecTriple := by decide

theorem test_decode_vDecInvDouble : decodeTableWord 16 0b100101001 = some .vDecInvDouble := by decide

theorem test_decode_vDecInvTriple : decodeTableWord 16 0b100101010 = some .vDecInvTriple := by decide

theorem test_decode_vDecLe16 : decodeTableWord 16 0b100101011 = some .vDecLe16 := by decide

theorem test_decode_vDecMode : decodeTableWord 16 0b100101100 = some .vDecMode := by decide

theorem test_decode_vDecTime : decodeTableWord 16 0b100101101 = some .vDecTime := by decide

theorem test_decode_vDecDate : decodeTableWord 16 0b100101110 = some .vDecDate := by decide

theorem test_decode_vDecDomain : decodeTableWord 16 0b100101111 = some .vDecDomain := by decide

theorem test_decode_vDecDevnum : decodeTableWord 16 0b100110000 = some .vDecDevnum := by decide

theorem test_decode_vDecErrnum : decodeTableWord 16 0b100110001 = some .vDecErrnum := by decide

theorem test_decode_vDecDevid : decodeTableWord 16 0b100110010 = some .vDecDevid := by decide

theorem test_decode_vCombDouble : decodeTableWord 16 0b101000111 = some .vCombDouble := by decide

theorem test_decode_vCombTriple : decodeTableWord 16 0b101001000 = some .vCombTriple := by decide

theorem test_decode_vCombInvDouble : decodeTableWord 16 0b101001001 = some .vCombInvDouble := by decide

theorem test_decode_vCombInvTriple : decodeTableWord 16 0b101001010 = some .vCombInvTriple := by decide


theorem test_decode_frameExt :
    decodeTableWord 56 0b0011_0010_00000000_11111010_00000000_00001100_00000000_11010111 =
      some (.frameExt 3 2 0 0x000C 0x00D7) := by decide

theorem test_decode_frameShort :
    decodeTableWord 40 0b0011_0010_00000000_00001011_00000001_00101100 =
      some (.frameShort 3 2 0 0x0B [0x01, 0x2C]) := by decide

theorem test_decode_frameRd :
    decodeTableWord 56 0b01100001_00000001_11111010_00000001_00100110_00000000_00000000 =
      some (.frameRd 0x301 0x0126) := by decide

theorem test_decode_frameWr :
    decodeTableWord 56 0b00110000_00000000_11111010_00000000_00010011_00000000_11010111 =
      some (.frameWr 0x180 0x0013 0x00D7) := by decide

theorem test_decode_id16 :
    decodeTableWord 16 0b11111_0_10_00_111111 = some (.id16 0x7FF .response) := by decide

/-! ## Refusals (table Z1) -/

/-- What a command word is refused with, if it is. -/
def errorOf (cmd : BitVec 9) : Option DecodeError :=
  match decode (.command cmd) with
  | .ok _ => none
  | .error e => some e

theorem test_refuses_op_0 : errorOf 0x000 = some (.reservedSelect 0) := by decide
theorem test_refuses_op_b : errorOf 0x160 = some (.reservedSelect 0xB) := by decide
theorem test_refuses_op_f : errorOf 0x1FF = some (.reservedSelect 0xF) := by decide
theorem test_refuses_kind_on_fdec : errorOf 0x021 = some (.kindOnKindless 1) := by decide
theorem test_refuses_enc_tag_19 : errorOf 0x113 = some (.reservedKind 19) := by decide
theorem test_refuses_dec_tag_31 : errorOf 0x13F = some (.reservedKind 31) := by decide
theorem test_refuses_comb_default : errorOf 0x140 = some (.notCombinable .defaultRaw) := by decide
theorem test_refuses_comb_le16 : errorOf 0x14B = some (.notCombinable .le16) := by decide

/-- Table row ID16: "11 not produced". -/
theorem test_refuses_id_tag_11 : decodeTableWord 16 0x3300 = none := by decide

/-! ## Single steps of the block -/

/-- A machine whose ports hold a request. -/
def holding (r : Request) : State := { State.reset with req := r }

/-- The lanes of a payload, absent lanes zero. -/
def lanes (p : List Byte) : Lanes := Vector.ofFn fun i : Fin 8 => p.getD i.val 0

/-- A request with a payload. -/
def payload (p : List Byte) : Request :=
  { Request.idle with B := lanes p, len := BitVec.ofNat 4 p.length }

/-- A request with an engineering value. -/
def engineering (q : Rat) : Request := { Request.idle with eng := .fin q }

/-- A request with a raw word. -/
def rawWord (v : Word16) : Request := { Request.idle with raw := v }

/-- A request with an address. -/
def address (a : Addr) : Request := { Request.idle with addr := a }

/-- A request with three words to combine. -/
def threeWords (a b c : Eng) : Request := { Request.idle with w0 := a, w1 := b, w2 := c }

/-- The answer of an instruction on a request meets a check. -/
def answers (i : Instr) (r : Request) (check : Response → Bool) : Bool :=
  match exec i (holding r) with
  | .next t => check t.resp
  | .fault _ => false
  | .refused _ => false

/-- The six results of FDEC. -/
def decodedIs (d : Decoded) (r : Response) : Bool :=
  r.knib == d.knib && r.kclass == d.kclass && r.confirm == d.confirm && r.rindex == d.rindex &&
    r.rvalue == d.rvalue && r.rcv == d.rcv

/-- The results of a built frame. -/
def frameIs (c : CanId) (p : List Byte) (r : Response) : Bool :=
  r.canId == c && r.olen == 7 && r.O.toList == p

/-- Example T1. -/
theorem test_fdec_source_scenario :
    answers .fdec (payload [0x02, 0x00, 0xFA, 0x00, 0x10, 0x00, 0x96])
      (decodedIs ⟨some 2, .confirm, true, 0x0010, 0x0096, 0x0000⟩) = true := by decide

/-- Table F1: an extended frame of 6 bytes has an index and no value. -/
theorem test_fdec_truncated :
    answers .fdec (payload [0x3F, 0x79, 0xFA, 0x01, 0x2C, 0x55])
      (decodedIs ⟨some 15, .other, false, 0x012C, 0x8000, 0xFFFF⟩) = true := by decide

/-- Table F3. -/
theorem test_fencRd_largest :
    answers .fencRd { Request.idle with sender := 0x1FFFFFFF, id16 := 0x6101, index := 0x0126 }
      (frameIs 0x1FFFFFFF [0x61, 0x01, 0xFA, 0x01, 0x26, 0x00, 0x00, 0x00]) = true := by decide

/-- Table F3. -/
theorem test_fencWr_negative :
    answers .fencWr
      { Request.idle with sender := 0x680, id16 := 0x3100, index := 0x0013, raw := 0xFFC9 }
      (frameIs 0x680 [0x31, 0x00, 0xFA, 0x00, 0x13, 0xFF, 0xC9, 0x00]) = true := by decide

/-- Table A1. -/
theorem test_aWid : answers .aWid (address 0x6A2) (fun r => r.r16 == 0xD022) = true := by decide
theorem test_aRid : answers .aRid (address 0x1C0) (fun r => r.r16 == 0x3900) = true := by decide
theorem test_aRsp : answers .aRsp (address 0x7FF) (fun r => r.r16 == 0xFA3F) = true := by decide

/-- Table A2: bit 7 of `B[1]` is masked off and 8 bytes are fine. -/
theorem test_aRcv_masks : answers .aRcv (payload [0x31, 0xF9]) (fun r => r.rcv == 0x01F9) = true := by
  decide
theorem test_aRcv_eight_bytes :
    answers .aRcv (payload [0x60, 0x01, 0x01, 0x02, 0x03, 0x04, 0x05, 0x06])
      (fun r => r.rcv == 0x0301) = true := by decide

/-! Table V1: V.ENC. -/

theorem test_vEncDefaultRaw_negative :
    answers .vEncDefaultRaw (engineering (-19 / 10)) (fun r => r.r16 == 0xFFFF) = true := by decide +kernel

theorem test_vEncDefaultRaw_largest :
    answers .vEncDefaultRaw (engineering (655359 / 10)) (fun r => r.r16 == 0xFFFF) = true := by decide +kernel

theorem test_vEncDec1_largest :
    answers .vEncDec1 (engineering (327674 / 100)) (fun r => r.r16 == 0x7FFF) = true := by decide +kernel

theorem test_vEncDec1_tie :
    answers .vEncDec1 (engineering (-5 / 100)) (fun r => r.r16 == 0xFFFF) = true := by decide +kernel

theorem test_vEncDec2_source :
    answers .vEncDec2 (engineering (2345 / 100)) (fun r => r.r16 == 0x0929) = true := by decide +kernel

theorem test_vEncDec2_tie :
    answers .vEncDec2 (engineering (-1005 / 1000)) (fun r => r.r16 == 0xFF9B) = true := by decide +kernel

theorem test_vEncDec3_largest :
    answers .vEncDec3 (engineering (32767 / 1000)) (fun r => r.r16 == 0x7FFF) = true := by decide +kernel

theorem test_vEncDec3_negative :
    answers .vEncDec3 (engineering (-1 / 1000)) (fun r => r.r16 == 0xFFFF) = true := by decide +kernel

theorem test_vEncByte_unmasked :
    answers .vEncByte (engineering (256)) (fun r => r.r16 == 0x0100) = true := by decide +kernel

theorem test_vEncByte_half :
    answers .vEncByte (engineering (5 / 10)) (fun r => r.r16 == 0x0000) = true := by decide +kernel

theorem test_vEncBool_unmasked :
    answers .vEncBool (engineering (256)) (fun r => r.r16 == 0x0100) = true := by decide +kernel

theorem test_vEncLeBool_unmasked :
    answers .vEncLeBool (engineering (256)) (fun r => r.r16 == 0x0100) = true := by decide +kernel

theorem test_vEncDouble_fallback :
    answers .vEncDouble (engineering (12345 / 10)) (fun r => r.r16 == 0x04D2) = true := by decide +kernel

theorem test_vEncTriple_fallback :
    answers .vEncTriple (engineering (12345 / 10)) (fun r => r.r16 == 0x04D2) = true := by decide +kernel

theorem test_vEncInvDouble_fallback :
    answers .vEncInvDouble (engineering (12345 / 10)) (fun r => r.r16 == 0x04D2) = true := by decide +kernel

theorem test_vEncInvTriple_fallback :
    answers .vEncInvTriple (engineering (12345 / 10)) (fun r => r.r16 == 0x04D2) = true := by decide +kernel

theorem test_vEncLe16_swap :
    answers .vEncLe16 (engineering (4660)) (fun r => r.r16 == 0x3412) = true := by decide +kernel

theorem test_vEncLe16_sentinel :
    answers .vEncLe16 (engineering (128)) (fun r => r.r16 == 0x8000) = true := by decide +kernel

theorem test_vEncMode_opaque :
    answers .vEncMode (engineering (5120)) (fun r => r.r16 == 0x1400) = true := by decide +kernel

theorem test_vEncTime_opaque :
    answers .vEncTime (engineering (5120)) (fun r => r.r16 == 0x1400) = true := by decide +kernel

theorem test_vEncDate_opaque :
    answers .vEncDate (engineering (5120)) (fun r => r.r16 == 0x1400) = true := by decide +kernel

theorem test_vEncDomain_opaque :
    answers .vEncDomain (engineering (5120)) (fun r => r.r16 == 0x1400) = true := by decide +kernel

theorem test_vEncDevnum_opaque :
    answers .vEncDevnum (engineering (5120)) (fun r => r.r16 == 0x1400) = true := by decide +kernel

theorem test_vEncErrnum_opaque :
    answers .vEncErrnum (engineering (5120)) (fun r => r.r16 == 0x1400) = true := by decide +kernel

theorem test_vEncDevid_opaque :
    answers .vEncDevid (engineering (5120)) (fun r => r.r16 == 0x1400) = true := by decide +kernel


/-! Table V2: V.DEC. -/

theorem test_vDecDefaultRaw :
    answers .vDecDefaultRaw (rawWord 0xFFC9) (fun r => r.reng == .fin (65481)) = true := by decide +kernel

theorem test_vDecDec1 :
    answers .vDecDec1 (rawWord 0xFFC9) (fun r => r.reng == .fin (-55 / 10)) = true := by decide +kernel

theorem test_vDecDec2 :
    answers .vDecDec2 (rawWord 0x0929) (fun r => r.reng == .fin (2345 / 100)) = true := by decide +kernel

theorem test_vDecDec3 :
    answers .vDecDec3 (rawWord 0x8001) (fun r => r.reng == .fin (-32767 / 1000)) = true := by decide +kernel

theorem test_vDecByte :
    answers .vDecByte (rawWord 0xFFC9) (fun r => r.reng == .fin (65481)) = true := by decide +kernel

theorem test_vDecBool :
    answers .vDecBool (rawWord 0xFFC9) (fun r => r.reng == .fin (65481)) = true := by decide +kernel

theorem test_vDecLeBool :
    answers .vDecLeBool (rawWord 0xFFC9) (fun r => r.reng == .fin (65481)) = true := by decide +kernel

theorem test_vDecDouble :
    answers .vDecDouble (rawWord 0xFFC9) (fun r => r.reng == .fin (65481)) = true := by decide +kernel

theorem test_vDecTriple :
    answers .vDecTriple (rawWord 0xFFC9) (fun r => r.reng == .fin (65481)) = true := by decide +kernel

theorem test_vDecInvDouble :
    answers .vDecInvDouble (rawWord 0xFFC9) (fun r => r.reng == .fin (65481)) = true := by decide +kernel

theorem test_vDecInvTriple :
    answers .vDecInvTriple (rawWord 0xFFC9) (fun r => r.reng == .fin (65481)) = true := by decide +kernel

theorem test_vDecLe16 :
    answers .vDecLe16 (rawWord 0x0080) (fun r => r.reng == .fin (32768)) = true := by decide +kernel

theorem test_vDecMode :
    answers .vDecMode (rawWord 0xFFC9) (fun r => r.reng == .fin (65481)) = true := by decide +kernel

theorem test_vDecTime :
    answers .vDecTime (rawWord 0xFFC9) (fun r => r.reng == .fin (65481)) = true := by decide +kernel

theorem test_vDecDate :
    answers .vDecDate (rawWord 0xFFC9) (fun r => r.reng == .fin (65481)) = true := by decide +kernel

theorem test_vDecDomain :
    answers .vDecDomain (rawWord 0xFFC9) (fun r => r.reng == .fin (65481)) = true := by decide +kernel

theorem test_vDecDevnum :
    answers .vDecDevnum (rawWord 0xFFC9) (fun r => r.reng == .fin (65481)) = true := by decide +kernel

theorem test_vDecErrnum :
    answers .vDecErrnum (rawWord 0xFFC9) (fun r => r.reng == .fin (65481)) = true := by decide +kernel

theorem test_vDecDevid :
    answers .vDecDevid (rawWord 0xFFC9) (fun r => r.reng == .fin (65481)) = true := by decide +kernel

theorem test_vDecDec1_missing :
    answers .vDecDec1 (rawWord 0x8000) (fun r => r.reng == .nan) = true := by decide +kernel

theorem test_vDecLe16_missing :
    answers .vDecLe16 (rawWord 0x8000) (fun r => r.reng == .nan) = true := by decide +kernel

theorem test_vDecLeBool_missing :
    answers .vDecLeBool (rawWord 0x8000) (fun r => r.reng == .nan) = true := by decide +kernel


/-! Table W1: V.COMB. -/

theorem test_vCombDouble :
    answers .vCombDouble (threeWords (.fin 12) (.fin 345) .nan) (fun r => r.reng == .fin 12345) = true := by
  decide +kernel
theorem test_vCombTriple :
    answers .vCombTriple (threeWords (.fin 65535) (.fin 65535) (.fin 65535))
      (fun r => r.reng == .fin 65600600535) = true := by decide +kernel
theorem test_vCombTriple_missing :
    answers .vCombTriple (threeWords (.fin 1) (.fin 234) .nan) (fun r => r.reng == .nan) = true := by
  decide +kernel
theorem test_vCombInvDouble :
    answers .vCombInvDouble (threeWords (.fin 345) (.fin 12) .nan) (fun r => r.reng == .fin 12345) =
      true := by decide +kernel
theorem test_vCombInvTriple :
    answers .vCombInvTriple (threeWords (.fin 567) (.fin 234) (.fin 1))
      (fun r => r.reng == .fin 1234567) = true := by decide +kernel

/-! Wire layouts: tables F2, X1, A1. -/

theorem test_frameExt :
    answers (.frameExt 0xF 2 0x7F 0x1234 0xFFFF) Request.idle
      (decodedIs ⟨some 2, .confirm, true, 0x1234, 0xFFFF, 0x07FF⟩) = true := by decide
theorem test_frameShort :
    answers (.frameShort 3 2 0 0xFB [0x00, 0x01]) Request.idle
      (decodedIs ⟨some 2, .confirm, true, 0x00FB, 0x0001, 0x0180⟩) = true := by decide
theorem test_frameRd :
    answers (.frameRd 0x1C0 0x000C) { Request.idle with sender := 0x680 }
      (frameIs 0x680 [0x39, 0x00, 0xFA, 0x00, 0x0C, 0x00, 0x00, 0x00]) = true := by decide
theorem test_frameWr :
    answers (.frameWr 0x301 0x0100 0x0929) { Request.idle with sender := 0x680 }
      (frameIs 0x680 [0x60, 0x01, 0xFA, 0x01, 0x00, 0x09, 0x29, 0x00]) = true := by decide
theorem test_id16 :
    answers (.id16 0x140 .response) Request.idle (fun r => r.r16 == 0x2A00) = true := by decide

/-! The pseudo-operations: table X1. -/

theorem test_buildWr :
    (buildWr .dec1 0x680 0x180 0x0013 (.fin (-11 / 2)) 0).toFrame.payload =
      [0x30, 0x00, 0xFA, 0x00, 0x13, 0xFF, 0xC9] := by decide +kernel
theorem test_parse_truncated :
    parse .dec1 [0x32, 0x00, 0xFA, 0x00, 0x13] = ⟨some 2, .confirm, true, 0x0013, 0x8000, .nan⟩ := by
  decide +kernel

/-! ## The environment: programs P3, P5, P6, P8 -/

/-- A watcher of a DEC1 register. -/
def sensor : Watcher := Watcher.start .readOnly ⟨⟨0x180, "sensor"⟩, 0x000C, .dec1, 1000⟩

/-- The TRIPLE watcher of P5, with words of an earlier cycle. -/
def energy : Watcher :=
  { Watcher.start .readOnly ⟨⟨0x180, "energy"⟩, 0x0300, .triple, 1000⟩ with
    slots := ⟨.fin 5, .fin 6, .fin 7⟩, lastPublished := some (.fin 5006007) }

/-- The writable watcher of P8. -/
def setpoint : Watcher := Watcher.start .writable ⟨⟨0x180, "setpoint"⟩, 0x0013, .dec1, 1000⟩

/-- A writable watcher that setup disables (R207). -/
def broken : Watcher := Watcher.start .writable ⟨⟨0x180, "broken"⟩, 0x0400, .double, 1000⟩

/-- A read request that is already queued. -/
def queued : CanFrame := ⟨0x680, [0x31, 0x00, 0xFA, 0x00, 0x0C, 0x00, 0x00]⟩

/-- An environment with these four watchers. -/
def plant : Env where
  senderId := 0x680
  tickIntervalMs := 100
  settleDelayMs := 500
  readOnly := [sensor, energy]
  writable := [setpoint, broken]
  queue := [queued]
  timers := [⟨500, ⟨.writable, 0⟩⟩]
  sent := []
  published := []
  logged := []

/-- The machine around an environment, with what comes next. -/
def around (e : Env) (inputs : List Input) : State := { State.reset with env := e, inputs := inputs }

/-- The environment after a step meets a check. -/
def leaves (s : State) (check : Env → Bool) : Bool :=
  match step s with
  | .next t => check t.env
  | .fault _ => false
  | .refused _ => false

/-- The environment of P6 before its last step: slots (NaN, 234, 567). -/
def almost : Env :=
  { plant with readOnly := [sensor, { energy with slots := ⟨.nan, .fin 234, .fin 567⟩ }] }

/-- Frame p2 of P3, 0x0300 = 1. -/
def wordZero : List Byte := [0xD2, 0x00, 0xFA, 0x03, 0x00, 0x00, 0x01]

/-- Frame p4 of P3, 0x0301 = 0x8000. -/
def wordMissing : List Byte := [0xD2, 0x00, 0xFA, 0x03, 0x01, 0x80, 0x00]

/-- Word 2 of the same register, 0x0302 = 567. -/
def wordTwo : List Byte := [0xD2, 0x00, 0xFA, 0x03, 0x02, 0x02, 0x37]

/-- The confirmation of P1: 0x000C = 0x00D7. -/
def confirmation : List Byte := [0xD2, 0x00, 0xFA, 0x00, 0x0C, 0x00, 0xD7]

/-- P1: a matching DEC1 watcher publishes 21.5. -/
theorem test_receive_single :
    leaves (around plant [.receive 0x180 false false confirmation])
      (fun e => e.readOnly.map (fun w => w.lastPublished) == [some (.fin (43 / 2)), some (.fin 5006007)]) = true := by decide +kernel

/-- P6, step 5: the last word completes the triple. -/
theorem test_receive_triple :
    leaves (around almost [.receive 0x180 false false wordZero])
      (fun e => e.readOnly.map (fun w => w.lastPublished) == [none, some (.fin 1234567)]) = true := by decide +kernel

/-- P3, step 12: a missing word is stored and nothing is published. -/
theorem test_receive_missing_word :
    leaves (around plant [.receive 0x180 false false wordMissing])
      (fun e => e.readOnly.map (fun w => w.lastPublished) == [none, some (.fin 5006007)] &&
        e.logged.length == 1 &&
        e.readOnly.map (fun w => w.slots.s1) == [.nan, .nan]) = true := by decide +kernel

/-- P5, step 1: three requests behind the queue, slots NaN. -/
theorem test_poll_triple :
    leaves (around plant [.poll ⟨.readOnly, 1⟩])
      (fun e => e.queue.drop 1 == [⟨0x680, [0x31, 0x00, 0xFA, 0x03, 0x00, 0x00, 0x00]⟩,
          ⟨0x680, [0x31, 0x00, 0xFA, 0x03, 0x01, 0x00, 0x00]⟩,
          ⟨0x680, [0x31, 0x00, 0xFA, 0x03, 0x02, 0x00, 0x00]⟩] &&
        e.readOnly.map (fun w => w.slots.s0) == [.nan, .nan]) = true := by decide +kernel

/-- P5, step 2: one frame per tick. -/
theorem test_tick :
    leaves (around plant [.tick true])
      (fun e => e.queue.length == 0 && e.sent == [⟨queued, false, true⟩]) = true := by decide +kernel

/-- P8, step 1: the write passes the queue and a timer is armed. -/
theorem test_control :
    leaves (around plant [.control 0 (43 / 2) true])
      (fun e => e.queue == [queued] && e.timers.length == 2 &&
        e.sent.map (fun x => x.frame.payload) == [[0x30, 0x00, 0xFA, 0x00, 0x13, 0x00, 0xD7]]) =
      true := by decide +kernel

/-- P8, step 3: the timer begins a read cycle. -/
theorem test_timer :
    leaves (around plant [.timerFires 0])
      (fun e => e.timers.length == 0 &&
        e.queue.map (fun f => f.payload) == [queued.payload, [0x31, 0x00, 0xFA, 0x00, 0x13, 0x00, 0x00]]) =
      true := by decide +kernel

/-! ## Witnesses: the hypotheses of each obligation can be met, clause by clause -/

/-- A request with a command word. -/
def asking (cmd : BitVec 9) (r : Request) : Request := { r with word := .command cmd }

theorem witness_StepServesDecodedRequest :
    (around plant [.request (asking 0x020 Request.idle)]).inputs =
        .request (asking 0x020 Request.idle) :: [] ∧
      decode (asking 0x020 Request.idle).word = .ok .fdec := ⟨rfl, rfl⟩

theorem witness_StepRefusesExactlyTheReservedRequests :
    (around plant [.request (asking 0x113 Request.idle)]).inputs =
        .request (asking 0x113 Request.idle) :: [] ∧
      (asking 0x113 Request.idle).word = .command 0x113 ∧
      refusedByRule 0x01F 0 ∧ ¬ refusedByRule 0x020 8 ∧ refusedByRule 0x020 9 ∧
      refusedByRule 0x021 0 ∧ ¬ refusedByRule 0x0E0 8 ∧ refusedByRule 0x0E0 15 ∧
      ¬ refusedByRule 0x112 9 ∧ refusedByRule 0x113 0 ∧ ¬ refusedByRule 0x132 0 ∧
      refusedByRule 0x133 0 ∧ refusedByRule 0x146 0 ∧ ¬ refusedByRule 0x147 0 ∧
      ¬ refusedByRule 0x14A 0 ∧ refusedByRule 0x14B 0 ∧ refusedByRule 0x160 0 := by
  refine ⟨rfl, rfl, ?_⟩
  simp [refusedByRule]

theorem witness_EnvironmentEventsAreAnswered :
    (around plant [.receive 0x180 false false (confirmation ++ [0])]).inputs =
        .receive 0x180 false false (confirmation ++ [0]) :: [] ∧
      (confirmation ++ [0]).length ≤ 8 ∧
      (∀ r, Input.receive 0x180 false false (confirmation ++ [0]) ≠ .request r) :=
  ⟨rfl, by decide, fun _ h => by cases h⟩

theorem witness_PayloadAboveEightIsRefused :
    8 < ({ Request.idle with len := 9 } : Request).len.toNat ∧
      (around plant [.receive 0x180 false false (confirmation ++ [0, 0])]).inputs =
        .receive 0x180 false false (confirmation ++ [0, 0]) :: [] ∧
      8 < (confirmation ++ [0, 0]).length := ⟨by decide, rfl, by decide⟩

/-- Two machines with one request and different environments, and a V.ENC inside its domain. -/
theorem witness_ResultsDependOnTheRequestOnly :
    ∃ s₁ s₂ t₁ : State, s₁.req = s₂.req ∧ s₁.env.settleDelayMs ≠ s₂.env.settleDelayMs ∧
      vEnc .dec1 s₁.req.eng ≠ none ∧ exec .vEncDec1 s₁ = .next t₁ :=
  ⟨{ holding (engineering (43 / 2)) with env := plant },
    { holding (engineering (43 / 2)) with env := { plant with settleDelayMs := 501 } }, _, rfl,
    by decide, by decide +kernel, rfl⟩

theorem witness_OnlyTheNamedResultsAreSpecified :
    ∃ t, exec .aWid (holding (address 0x180)) = .next t := ⟨_, rfl⟩

theorem witness_BlockAndEnvironmentAreSeparate :
    (∃ t, step (around plant [.request (asking 0x080 Request.idle)]) = .next t) ∧
      (∃ t, step (around plant [.tick false]) = .next t) := ⟨⟨_, rfl⟩, ⟨_, rfl⟩⟩

theorem witness_ResetStartsTheEnvironment :
    sensor ∈ (Env.start ⟨0x680, [sensor.config], [], 100, 500⟩).registry .readOnly := by
  simp [Env.start, Env.registry, sensor, Watcher.start]

/-- The invariant holds in a machine with four watchers, a queued request and a pending timer, whose
next step is answered. -/
theorem witness_EveryStepKeepsSoundness :
    Inv (around plant [.tick true]) ∧ ∃ t, step (around plant [.tick true]) = .next t := by
  refine ⟨⟨by decide, ?_, ?_, ?_, by decide, ?_⟩, ⟨_, rfl⟩⟩
  · intro w hw
    rcases List.mem_cons.mp hw with rfl | hw
    · constructor <;> simp [sensor, Watcher.start, isMultiWordKind, wordCount, wordValue, Slots.unset]
    · rcases List.mem_singleton.mp hw with rfl
      constructor <;>
        simp [energy, Watcher.start, isMultiWordKind, wordCount, wordValue]
      exact ⟨⟨5, by norm_num⟩, ⟨6, by norm_num⟩, ⟨7, by norm_num⟩⟩
  · intro w hw
    rcases List.mem_cons.mp hw with rfl | hw
    · constructor <;> simp [setpoint, Watcher.start, isMultiWordKind, wordCount, wordValue, Slots.unset]
    · rcases List.mem_singleton.mp hw with rfl
      constructor <;> simp [broken, Watcher.start, isMultiWordKind, wordCount, wordValue, Slots.unset]
  · intro f hf
    rcases List.mem_singleton.mp hf with rfl
    exact ⟨rfl, 0x180, 0x000C, by decide⟩
  · intro t ht
    rcases List.mem_singleton.mp ht with rfl
    exact ⟨rfl, rfl, setpoint, rfl, rfl⟩

theorem witness_SetupNeverChanges : ∃ t, step (around plant [.poll ⟨.readOnly, 1⟩]) = .next t :=
  ⟨_, rfl⟩

theorem witness_DecodeOfEncodeIsIdentity :
    (Instr.frameShort 0xF 2 0x79 0xFB [1, 2, 3, 4]).WellFormed ∧
      (Instr.frameShort 0 0 0 0xF9 []).WellFormed ∧ (Instr.frameExt 0 0 0 0 0).WellFormed := by decide

theorem witness_EncodeOfDecodeIsIdentity :
    decode (.received [0x32, 0x00, 0xF9]) = .ok (.frameShort 3 2 0 0xF9 []) := rfl

theorem witness_FdecAnswersFromThePresentLanes :
    (holding (payload [])).req.len.toNat ≤ 8 ∧
      (holding (payload (confirmation ++ [0]))).req.len.toNat ≤ 8 := by decide

theorem witness_RcvAnswersTheReceiver :
    (holding (payload [0x31])).req.len.toNat ≤ 8 ∧
      (holding (payload (confirmation ++ [0]))).req.len.toNat ≤ 8 := by decide

/-- Two requests that differ in an absent lane only. -/
theorem witness_AbsentLanesDoNotMatter :
    let s₁ := holding { payload [1, 2] with B := lanes [1, 2, 3] }
    let s₂ := holding (payload [1, 2])
    s₁.req.len = s₂.req.len ∧ s₁.req.len.toNat ≤ 8 ∧ s₁.req.B ≠ s₂.req.B ∧
      ∀ (i : Nat) (h : i < 8), i < s₁.req.len.toNat → s₁.req.B[i] = s₂.req.B[i] := by
  refine ⟨rfl, by decide, by decide, ?_⟩
  intro i h hi
  have hi' : i < 2 := hi
  rcases i with _ | _ | i
  · rfl
  · rfl
  · omega

theorem witness_BuiltFramesDecodeBack :
    (∃ t s' : State, exec .fencRd (holding (rawWord 0x00D7)) = .next t ∧ s'.req.B = t.resp.O ∧
      s'.req.len = t.resp.olen) ∧
    (∃ t s' : State, exec .fencWr (holding (rawWord 0x00D7)) = .next t ∧ s'.req.B = t.resp.O ∧
      s'.req.len = t.resp.olen) :=
  ⟨⟨_, holding { Request.idle with B := _, len := _ }, rfl, rfl, rfl⟩, ⟨_, holding { Request.idle with B := _, len := _ }, rfl, rfl, rfl⟩⟩

theorem witness_IdsNeverCollide :
    ∃ t₁ t₂ : State, exec (idInstr .read) (holding (address 0x1C0)) = .next t₁ ∧
      exec (idInstr .read) { holding (address 0x1C0) with env := plant } = .next t₂ ∧
      t₁.resp.r16 = t₂.resp.r16 := ⟨_, _, rfl, rfl, rfl⟩

/-- The first two bytes of an id as a payload of two bytes. -/
def idBytes (id : Word16) : Request :=
  { payload [0, 0] with B := lanes [(id >>> 8).setWidth 8, id.setWidth 8] }

theorem witness_ReceiverOfAnIdLosesBitSix :
    ∃ t s' : State, exec (idInstr .response) (holding (address 0x1C0)) = .next t ∧
      s'.req.B[0] = (t.resp.r16 >>> 8).setWidth 8 ∧ s'.req.B[1] = t.resp.r16.setWidth 8 ∧
      2 ≤ s'.req.len.toNat ∧ s'.req.len.toNat ≤ 8 :=
  ⟨_, holding (idBytes 0x3A00), rfl, by decide, by decide, by decide, by decide⟩

/-- With address bit 6 set, and with it clear. -/
theorem witness_KindNibbleOfAnId :
    (∃ t s' : State, exec (idInstr .response) (holding (address 0x1C0)) = .next t ∧
      s'.req.B[0] = (t.resp.r16 >>> 8).setWidth 8 ∧ 1 ≤ s'.req.len.toNat ∧ s'.req.len.toNat ≤ 8) ∧
    (∃ t s' : State, exec (idInstr .write) (holding (address 0x180)) = .next t ∧
      s'.req.B[0] = (t.resp.r16 >>> 8).setWidth 8 ∧ 1 ≤ s'.req.len.toNat ∧ s'.req.len.toNat ≤ 8) :=
  ⟨⟨_, holding (idBytes 0x3A00), rfl, by decide, by decide, by decide⟩,
    ⟨_, holding (idBytes 0x3000), rfl, by decide, by decide, by decide⟩⟩

/-- The ends of the range, and a half that goes away from zero. -/
theorem witness_FixedPointEncodeIsNearest :
    (Kind.dec3, 3) ∈ [(Kind.dec1, 1), (Kind.dec2, 2), (Kind.dec3, 3)] ∧
      (holding (engineering (1 / 20))).req.eng = .fin (1 / 20) ∧
      NearestAway (1 / 20 * 10 ^ 1) 1 ∧ NearestAway (-1 / 20 * 10 ^ 1) (-1) ∧
      NearestAway (327674 / 100 * 10 ^ 1) 32767 ∧ NearestAway (-327684 / 100 * 10 ^ 1) (-32768) := by
  refine ⟨by simp, rfl, .inr ?_, .inr ?_, .inl ?_, .inl ?_⟩ <;> norm_num [abs_lt, abs_of_nonneg, abs_of_neg]

theorem witness_RawEncodeTruncates :
    (Kind.leBool) ∈ [Kind.defaultRaw, .byte, .bool, .leBool] ∧
      TruncatesTo (-19 / 10) (-1) ∧ TruncatesTo (655359 / 10) 65535 ∧
      TruncatesTo (-327689 / 10) (-32768) ∧ TruncatesTo (-9 / 10) 0 := by
  refine ⟨by decide, ?_, ?_, ?_, ?_⟩ <;> constructor <;> intro _ <;> norm_num at *

theorem witness_SwappedEncodeSwapsBytes :
    (holding (engineering 4660)).req.eng = .fin 4660 ∧ TruncatesTo 4660 4660 ∧
      TruncatesTo 65535 65535 ∧ TruncatesTo (-32768) (-32768) := by
  refine ⟨rfl, ?_, ?_, ?_⟩ <;> constructor <;> intro _ <;> norm_num at *

theorem witness_FixedPointDecodeDivides :
    (holding (rawWord 0x8000)).req.raw = 0x8000 ∧ (holding (rawWord 0x8001)).req.raw ≠ 0x8000 ∧
      (holding (rawWord 0x7FFF)).req.raw ≠ 0x8000 := by decide

theorem witness_RawDecodeIsUnsigned :
    Kind.devid ∈ [Kind.defaultRaw, .devid] ∧ (holding (rawWord 0x8000)).req.raw = 0x8000 ∧
      (holding (rawWord 0xFFFF)).req.raw ≠ 0x8000 := by decide

theorem witness_SmallKindDecodeIsTheDefaultRule :
    Kind.leBool ∈ [Kind.byte, .bool, .leBool] ∧ (holding (rawWord 0x8000)).req.raw = 0x8000 ∧
      (holding (rawWord 0x0100)).req.raw ≠ 0x8000 := by decide

theorem witness_SwappedDecodeSwapsBytes :
    (holding (rawWord 0x8000)).req.raw = 0x8000 ∧ (holding (rawWord 0x0080)).req.raw ≠ 0x8000 ∧
      (holding (rawWord 0x0080)).req.raw = 0x0080 := by decide

/-- Just inside the upper end of the range, and at a half. -/
theorem witness_FixedPointRoundTripIsWithinHalfAUnit :
    ∃ t s' : State, (holding (engineering (327674 / 100))).req.eng = .fin (327674 / 100) ∧
      |(327674 / 100 : Rat) * 10 ^ 1| < 32767 + 1 / 2 ∧ |(-1 / 20 : Rat) * 10 ^ 1| < 32767 + 1 / 2 ∧
      exec (vEncOf .dec1) (holding (engineering (327674 / 100))) = .next t ∧
      s'.req.raw = t.resp.r16 :=
  ⟨_, holding (rawWord _), rfl, by norm_num [abs_lt], by norm_num [abs_lt], rfl, rfl⟩

/-- For LE16 and for the default rule, beside the excluded integer. -/
theorem witness_TruncatingRoundTripIsWithinOne :
    ∃ t s' : State, scale .le16 = 0 ∧ (holding (engineering 129)).req.eng = .fin 129 ∧
      (0 : Rat) ≤ 129 ∧ (129 : Rat) < 65536 ∧ ¬ ((128 : Rat) ≤ 129 ∧ (129 : Rat) < 129) ∧
      ¬ ((32768 : Rat) ≤ 655359 / 10 ∧ (655359 / 10 : Rat) < 32769) ∧
      exec (vEncOf .le16) (holding (engineering 129)) = .next t ∧ s'.req.raw = t.resp.r16 :=
  ⟨_, holding (rawWord _), rfl, rfl, by norm_num, by norm_num, by norm_num, by norm_num, rfl, rfl⟩

theorem witness_EncodeOfDecodeIsTheRawValue :
    ∃ t s' : State, (holding (rawWord 0x8001)).req.raw ≠ 0x8000 ∧
      exec (vDecOf .dec3) (holding (rawWord 0x8001)) = .next t ∧ s'.req.eng = t.resp.reng :=
  ⟨_, holding { Request.idle with eng := _ }, by decide, rfl, rfl⟩

/-- Program P2: the value -5.5 to address 0x180, index 0x0013. -/
theorem witness_WriteThenParseComesBack :
    ∃ t₁ t₂ s₃ t₃ s₄ s₅ : State, exec .aWid (holding (address 0x180)) = .next t₁ ∧
      (holding (engineering (-11 / 2))).req.eng = .fin (-11 / 2) ∧
      exec (vEncOf .dec1) (holding (engineering (-11 / 2))) = .next t₂ ∧
      s₃.req.id16 = t₁.resp.r16 ∧ s₃.req.raw = t₂.resp.r16 ∧ exec .fencWr s₃ = .next t₃ ∧
      s₄.req.B = t₃.resp.O ∧ s₄.req.len = t₃.resp.olen ∧ s₅.req.raw = t₂.resp.r16 ∧
      t₂.resp.r16 ≠ 0x8000 ∧
      -(32768 + 1 / 2) < (-11 / 2 : Rat) * 10 ^ 1 ∧ (-11 / 2 : Rat) * 10 ^ 1 < 32767 + 1 / 2 :=
  ⟨_, _, holding { Request.idle with id16 := _, raw := _ }, _, holding { Request.idle with B := _, len := _ },
    holding (rawWord _), rfl, rfl, rfl, rfl, rfl, rfl, rfl, rfl, rfl, by decide +kernel, by norm_num,
    by norm_num⟩

/-- The other clauses: the sentinel, a value between -1 and 0, one of -1 or less, the largest. -/
theorem witness_WriteThenParseComesBack_truncating :
    (∃ t, exec (vEncOf .le16) (holding (engineering 128)) = .next t ∧ t.resp.r16 = 0x8000) ∧
    (∃ t, exec (vEncOf .le16) (holding (engineering (-9 / 10))) = .next t ∧ t.resp.r16 ≠ 0x8000) ∧
    (∃ t, exec (vEncOf .bool) (holding (engineering (-1))) = .next t ∧ t.resp.r16 = 0xFFFF) ∧
    (∃ t, exec (vEncOf .mode) (holding (engineering (655359 / 10))) = .next t ∧ t.resp.r16 = 0xFFFF) :=
  ⟨⟨_, rfl, by decide +kernel⟩, ⟨_, rfl, by decide +kernel⟩, ⟨_, rfl, by decide +kernel⟩,
    ⟨_, rfl, by decide +kernel⟩⟩

theorem witness_CombineMostSignificantFirst :
    (holding (threeWords (.fin 12) (.fin 345) .nan)).req.w0 = .fin 12 ∧
      (holding (threeWords .nan (.fin 1) (.fin 2))).req.w0 = .nan := ⟨rfl, rfl⟩

theorem witness_CombineLeastSignificantFirst :
    (holding (threeWords (.fin 345) (.fin 12) .nan)).req.w1 = .fin 12 ∧
      (holding (threeWords (.fin 1) .nan (.fin 2))).req.w1 = .nan := ⟨rfl, rfl⟩

theorem witness_ShortLayoutDecodesToItsFields :
    (0xFB : Byte) ≠ 0xFA ∧ ([1, 2, 3, 4] : List Byte).length ≤ 4 ∧ ([1] : List Byte).length < 2 ∧
      ∃ hi lo more, ([1, 2, 3, 4] : List Byte) = hi :: lo :: more :=
  ⟨by decide, by decide, by decide, _, _, _, rfl⟩

/-- A request frame (nibble 1), an empty one, and one of class OTHER. -/
theorem witness_DroppedFramesReachNoWatcher :
    ∀ p ∈ [queued.payload, [], [0x3A, 0x00]],
      (around plant [.receive 0x180 false false p]).inputs = .receive 0x180 false false p :: [] ∧
      p.length ≤ 8 ∧ ∀ b, p.head? = some b → b &&& 0x0F ≠ 2 := by
  intro p hp
  simp only [List.mem_cons, List.not_mem_nil, or_false] at hp
  rcases hp with rfl | rfl | rfl
  · refine ⟨rfl, by decide, ?_⟩
    simp [queued]
  · refine ⟨rfl, by decide, ?_⟩
    simp
  · refine ⟨rfl, by decide, ?_⟩
    simp

theorem witness_DeliveredFramesAreLogged :
    (decodeFrame queued.payload).knib = some 1 ∧ (decodeFrame confirmation).knib ≠ some 1 ∧
      (around plant [.receive 0x180 false false confirmation]).inputs =
        .receive 0x180 false false confirmation :: [] ∧ confirmation.length ≤ 8 :=
  ⟨by decide, by decide, rfl, by decide⟩

theorem witness_SingleWordWatchersPublishEachMatch :
    (around plant [.receive 0x180 false false confirmation]).inputs =
        .receive 0x180 false false confirmation :: [] ∧ confirmation.length ≤ 8 ∧
      (decodeFrame confirmation).confirm = true ∧ (plant.registry .readOnly)[0]? = some sensor ∧
      sensor.failed = false ∧ wordsOf sensor.config.encoding = 1 ∧
      (0x180 : CanId) = sensor.config.target.numericAddress.setWidth 29 ∧
      (decodeFrame confirmation).rindex = sensor.config.elsterIndex :=
  ⟨rfl, by decide, by decide, rfl, rfl, rfl, by decide, by decide⟩

/-- Word 0, which completes the triple, and word 1 missing, which does not; word 2 is the last. -/
theorem witness_MultiWordWatchersStoreAndCombine :
    (around almost [.receive 0x180 false false wordZero]).inputs =
        .receive 0x180 false false wordZero :: [] ∧ wordZero.length ≤ 8 ∧
      (decodeFrame wordZero).confirm = true ∧ (plant.registry .readOnly)[1]? = some energy ∧
      energy.failed = false ∧ wordsOf energy.config.encoding ≠ 1 ∧
      wordsOf energy.config.encoding = 2 + 1 ∧
      (0x180 : CanId) = energy.config.target.numericAddress.setWidth 29 ∧
      (decodeFrame wordZero).rindex.toNat = energy.config.elsterIndex.toNat + 0 ∧
      (decodeFrame wordMissing).rindex.toNat = energy.config.elsterIndex.toNat + 1 ∧
      (decodeFrame wordTwo).rindex.toNat = energy.config.elsterIndex.toNat + 2 ∧
      (decodeFrame wordTwo).confirm = true :=
  ⟨rfl, by decide, by decide, rfl, rfl, by decide, by decide, by decide, by decide, by decide,
    by decide, by decide⟩

/-- Both outcomes of a combination, for each of the four kinds. -/
theorem witness_IsCombination :
    IsCombination .triple ⟨.fin 1, .fin 234, .fin 567⟩ (.fin (1 * 1000000 + 234 * 1000 + 567)) ∧
      IsCombination .invTriple ⟨.fin 567, .fin 234, .fin 1⟩
        (.fin (567 + 234 * 1000 + 1 * 1000000)) ∧
      IsCombination .double ⟨.fin 12, .fin 345, .nan⟩ (.fin (12 * 1000 + 345)) ∧
      IsCombination .invDouble ⟨.fin 345, .fin 12, .nan⟩ (.fin (345 + 12 * 1000)) ∧
      IsCombination .triple ⟨.fin 5, .nan, .fin 7⟩ .nan ∧ IsCombination .double ⟨.nan, .fin 7, .nan⟩ .nan :=
  ⟨.inl ⟨_, _, _, rfl, rfl, rfl, rfl⟩, .inl ⟨_, _, _, rfl, rfl, rfl, rfl⟩, .inl ⟨_, _, rfl, rfl, rfl⟩,
    .inl ⟨_, _, rfl, rfl, rfl⟩, .inr ⟨.inr (.inl rfl), rfl⟩, .inr ⟨.inl rfl, rfl⟩⟩

/-- A disabled watcher, another id, and an index on either side of a range. -/
theorem witness_OtherWatchersAreLeftAlone :
    (plant.registry .writable)[1]? = some broken ∧ broken.failed = true ∧
      (0x181 : CanId) ≠ sensor.config.target.numericAddress.setWidth 29 ∧
      (decodeFrame confirmation).rindex.toNat < energy.config.elsterIndex.toNat ∧
      (plant.registry .readOnly)[0]? = some sensor ∧
      sensor.config.elsterIndex.toNat + wordsOf sensor.config.encoding ≤
        (decodeFrame wordZero).rindex.toNat := ⟨rfl, rfl, by decide, by decide, rfl, by decide⟩

theorem witness_PollEnqueuesOneReadPerWord :
    (around plant [.poll ⟨.readOnly, 1⟩]).inputs = .poll ⟨.readOnly, 1⟩ :: [] ∧
      plant.watcher? ⟨.readOnly, 1⟩ = some energy ∧ energy.failed = false ∧
      energy.config.elsterIndex.toNat + wordsOf energy.config.encoding ≤ 0x10000 ∧
      (⟨.readOnly, 0⟩ : WatcherRef) ≠ ⟨.readOnly, 1⟩ ∧ wordsOf energy.config.encoding ≠ 1 :=
  ⟨rfl, rfl, rfl, by decide, by decide, by decide⟩

theorem witness_PollingTwiceResetsTwice :
    (around plant [.poll ⟨.readOnly, 1⟩, .poll ⟨.readOnly, 1⟩]).inputs =
        .poll ⟨.readOnly, 1⟩ :: .poll ⟨.readOnly, 1⟩ :: [] ∧
      plant.watcher? ⟨.readOnly, 1⟩ = some energy ∧ energy.failed = false := ⟨rfl, rfl, rfl⟩

/-- An empty queue, and one with a head. -/
theorem witness_TickDrainsOneFrame :
    (around plant [.tick true]).inputs = .tick true :: [] ∧
      (around { plant with queue := [] } [.tick true]).env.queue = [] ∧
      (around plant [.tick true]).env.queue = queued :: [] := ⟨rfl, rfl, rfl⟩

theorem witness_QueueIsFirstInFirstOut :
    let s := around { plant with queue := [queued, ⟨1, []⟩, ⟨2, []⟩] } [.tick true, .tick false]
    s.env.queue = [(queued, true), (⟨1, []⟩, false)].map Prod.fst ++ [⟨2, []⟩] ∧
      s.inputs = [(queued, true), ((⟨1, []⟩ : CanFrame), false)].map (fun f => .tick f.2) ++ [] :=
  ⟨rfl, rfl⟩

theorem witness_ControlSendsPastTheQueue :
    (around plant [.control 0 (43 / 2) false]).inputs = .control 0 (43 / 2) false :: [] ∧
      plant.writable[0]? = some setpoint ∧ setpoint.failed = false ∧
      vEnc setpoint.config.encoding (.fin (43 / 2)) = some 0x00D7 := ⟨rfl, rfl, rfl, by decide +kernel⟩

theorem witness_TimerBeginsAReadCycle :
    ∃ u, (around plant [.timerFires 0]).inputs = .timerFires 0 :: [] ∧
      plant.timers[0]? = some ⟨500, ⟨.writable, 0⟩⟩ ∧
      (around plant [.poll ⟨.writable, 0⟩]).inputs = .poll ⟨.writable, 0⟩ :: [] ∧
      (around plant [.poll ⟨.writable, 0⟩]).env = (around plant [.timerFires 0]).env ∧
      step (around plant [.poll ⟨.writable, 0⟩]) = .next u := ⟨_, rfl, rfl, rfl, rfl, rfl⟩

theorem witness_CancelledTimerIsRemoved :
    (around plant [.timerCancelled 0]).inputs = .timerCancelled 0 :: [] ∧
      plant.timers[0]? = some ⟨500, ⟨.writable, 0⟩⟩ := ⟨rfl, rfl⟩

theorem witness_DisabledWatchersAreInert :
    plant.watcher? ⟨.writable, 1⟩ = some broken ∧ broken.failed = true ∧
      (∃ t, step (around plant [.poll ⟨.writable, 1⟩]) = .next t) ∧
      (∃ t, step (around plant [.control 1 5 true]) = .next t) := ⟨rfl, rfl, ⟨_, rfl⟩, ⟨_, rfl⟩⟩

theorem witness_CompositesAreTheirExpansions :
    (∃ t s' u : State, exec .aRid (holding (address 0x180)) = .next t ∧ s'.req.id16 = t.resp.r16 ∧
      exec .fencRd s' = .next u) ∧
    (∃ t s' t' s'' u : State, exec .aWid (holding (address 0x180)) = .next t ∧
      exec (vEncOf .dec1) s' = .next t' ∧ s''.req.id16 = t.resp.r16 ∧ s''.req.raw = t'.resp.r16 ∧
      exec .fencWr s'' = .next u) ∧
    (∃ t s' u : State, exec .fdec (holding (payload confirmation)) = .next t ∧
      s'.req.raw = t.resp.rvalue ∧ exec (vDecOf .dec1) s' = .next u) :=
  ⟨⟨_, holding { Request.idle with id16 := _ }, _, rfl, rfl, rfl⟩,
    ⟨_, holding (engineering 5), _, holding { Request.idle with id16 := _, raw := _ }, _, rfl, rfl, rfl,
      rfl, rfl⟩,
    ⟨_, holding (rawWord _), _, rfl, rfl, rfl⟩⟩

/-- binary64 as a format. -/
def binary64 : FloatFormat := ⟨53, -1074, 2045⟩

/-- The largest words, and a format with the exponent 0. -/
theorem witness_CombinationsOfWordsStayInRange :
    (Instr.vCombTriple, 65600600535) ∈ [(Instr.vCombDouble, 65600535), (.vCombInvDouble, 65600535),
        (.vCombTriple, 65600600535), (.vCombInvTriple, 65600600535)] ∧
      wordValue (.fin 65535) ∧ wordValue .nan ∧ 36 ≤ (binary64.precision : Nat) ∧
      binary64.minExponent ≤ 0 ∧ 0 ≤ maxExponent binary64 :=
  ⟨by simp, ⟨65535, by norm_num⟩, trivial, by decide, by decide, by decide⟩

/-- -5.5 times 10 is a number of binary64, its rounding is itself, and -55 is its encoding there. -/
theorem witness_ConcreteFormatsAgreeWhereTheyRepresent :
    (Kind.dec1, 1) ∈ [(Kind.dec1, 1), (Kind.dec2, 2), (Kind.dec3, 3)] ∧
      representsIn binary64 (-11 / 2 * 10 ^ 1) ∧ NearestAway (-11 / 2 * 10 ^ 1) (-55) ∧
      encFixedIn binary64 1 (.fin (-11 / 2)) 0xFFC9 := by
  have e : (-11 / 2 * 10 ^ 1 : Rat) = ((-55 : Int) : Rat) := by norm_num
  have h : representsIn binary64 (-11 / 2 * 10 ^ 1) := by
    rw [e]; exact ⟨-55, 0, by norm_num [binary64], by decide, by decide, by simp⟩
  refine ⟨by simp, h, .inl (by norm_num), -11 / 2 * 10 ^ 1, ⟨h, fun x _ => ?_⟩, ?_⟩
  · rw [show (-11 / 2 * powTen 1 : Rat) = -11 / 2 * 10 ^ 1 by norm_num [powTen], sub_self, abs_zero]
    exact abs_nonneg _
  · intro w hw
    have hk : patternIn (-32768) 32767 (roundBy Config.roundTies (-11 / 2 * 10 ^ 1)) = some 0xFFC9 := by
      decide +kernel
    rw [hk] at hw
    exact Option.some.inj hw

theorem witness_EnvironmentUsesTheOperations :
    (holding (payload (confirmation ++ [0]))).req.len.toNat ≤ 8 ∧
      vCombOf .invTriple = some .vCombInvTriple ∧ vEnc .dec1 (.fin 5) = some 50 :=
  ⟨by decide, rfl, by decide +kernel⟩

end Sys2Proof.Tests
end

section
/-! The AddressScheme (spec/41_address_scheme.md): the word formulas of the model are the integer
formulas of R110 to R113, because no shift or sum in them leaves 16 bits (R9). -/

namespace Sys2Proof.Machine

/-! ### Identifiers (R110 to R112) -/

/-- R110 over integers. The masked address is at most 0x7C0, so shifting it by 5 loses no bit. -/
theorem writeId_toNat (a : Addr) :
    (writeId a).toNat = ((a.toNat &&& 0x7C0) <<< 5) ||| (a.toNat &&& 0x3F) := by
  have extend : (a.zeroExtend 16).toNat = a.toNat := BitVec.toNat_setWidth_of_le (by decide)
  have high : a.toNat &&& 0x7C0 ≤ 0x7C0 := Nat.and_le_right
  have noOverflow : (a.toNat &&& 0x7C0) <<< 5 < 2 ^ 16 := by rw [Nat.shiftLeft_eq]; omega
  simp only [writeId, BitVec.toNat_or, BitVec.toNat_shiftLeft, BitVec.toNat_and, extend,
    BitVec.reduceToNat, Nat.mod_eq_of_lt noOverflow]

/-- R111 over integers: a tag bit is set beside `writeId`. -/
theorem readId_toNat (a : Addr) : (readId a).toNat = (writeId a).toNat ||| 0x100 :=
  BitVec.toNat_or ..

/-- R112 over integers. -/
theorem responseId_toNat (a : Addr) : (responseId a).toNat = (writeId a).toNat ||| 0x200 :=
  BitVec.toNat_or ..

/-- An id operation answers on every address, with the identifier of its tag. -/
theorem idInstr_answers (x : IdTag) {s : State} {n : Nat} (h : (idOf x s.req.addr).toNat = n) :
    ∃ t, exec (idInstr x) s = .next t ∧ OnlyPorts s t ∧ t.resp.r16.toNat = n :=
  ⟨_, exec_idInstr x s, answered_onlyPorts _ s, h⟩

/-! ### Receiver (R113) -/

/-- The last clause of R113 over integers: its two terms are at most 0x780 and 0x7F. -/
theorem receiverFormula_toNat (b c : Byte) :
    (((b.zeroExtend 16 &&& 0xF0) <<< 3) + (c.zeroExtend 16 &&& 0x7F) : Word16).toNat =
      ((b.toNat &&& 0xF0) <<< 3) + (c.toNat &&& 0x7F) := by
  have extend (x : Byte) : (x.zeroExtend 16).toNat = x.toNat :=
    BitVec.toNat_setWidth_of_le (by decide)
  have high : b.toNat &&& 0xF0 ≤ 0xF0 := Nat.and_le_right
  have low : c.toNat &&& 0x7F ≤ 0x7F := Nat.and_le_right
  simp only [BitVec.toNat_add, BitVec.toNat_shiftLeft, BitVec.toNat_and, extend,
    BitVec.reduceToNat, Nat.shiftLeft_eq]
  omega

/-- R113 on a presented payload of legal length: the bytes it reads are present lanes. -/
theorem receiverOf_bytes_toNat {r : Request} (h : r.len.toNat ≤ 8) :
    (receiverOf r.bytes).toNat =
      (if r.len.toNat < 2 then 0xFFFF
       else if r.B[1] = 0x79 then 0xFFFF
       else ((r.B[0].toNat &&& 0xF0) <<< 3) + (r.B[1].toNat &&& 0x7F)) := by
  rw [receiverOf, bytes_length h]
  by_cases short : r.len.toNat < 2
  · rw [if_pos short, if_pos short]; rfl
  · have lane0 : byteAt r.bytes 0 = r.B[0] := byteAt_bytes (by omega) h
    have lane1 : byteAt r.bytes 1 = r.B[1] := byteAt_bytes (by omega) h
    rw [if_neg short, if_neg short, lane0, lane1, passiveMarker]
    by_cases passive : r.B[1] = 0x79
    · rw [if_pos passive, if_pos passive]; rfl
    · rw [if_neg passive, if_neg passive, receiverFormula_toNat]

/-! ### The obligations -/

/-- Settles O16: A.RCV admits a payload of legal length and answers `receiverOf` of it. -/
theorem rcvAnswersTheReceiver : Obligations.RcvAnswersTheReceiver := by
  intro s h
  have answer : exec .aRcv s = respondRcv (receiverOf s.req.bytes) s := execARcv_of_le h
  exact ⟨_, answer, answered_onlyPorts _ s, receiverOf_bytes_toNat h⟩

/-- Settles O21: each of the three ids over integers, the tag bits set beside `writeId`. -/
theorem addressIdsFollowTheFormulas : Obligations.AddressIdsFollowTheFormulas := by
  intro s w
  have writes : (writeId s.req.addr).toNat = w := writeId_toNat s.req.addr
  have reads : (readId s.req.addr).toNat = w ||| 0x100 := by rw [readId_toNat, writes]
  have responds : (responseId s.req.addr).toNat = w ||| 0x200 := by rw [responseId_toNat, writes]
  exact ⟨idInstr_answers .write writes, idInstr_answers .read reads,
    idInstr_answers .response responds⟩

end Sys2Proof.Machine
end

section
/-! The decode half of the ValueCodec (spec/42_value_codec.md, R127 to R129): a V.DEC operation
answers with `vDec` of the presented word, and what the three decode rules give over integers. -/

namespace Sys2Proof.Machine

/-! ### Dispatch (R120) -/

/-- A V.DEC operation answers on every word. -/
theorem vDecOf_answers (k : Kind) (s : State) :
    ∃ t, exec (vDecOf k) s = .next t ∧ OnlyPorts s t ∧ t.resp.reng = vDec k s.req.raw :=
  ⟨_, exec_vDecOf k s, answered_onlyPorts _ s, rfl⟩

/-- A kind with decimals decodes by the fixed-point rule of its scale. -/
theorem vDec_of_scale_ne_zero {k : Kind} (decimals : scale k ≠ 0) (raw : Word16) :
    vDec k raw = decFixed (scale k) raw := by
  cases k with
  | dec1 | dec2 | dec3 => rfl
  | _ => exact absurd rfl decimals

/-- A kind without decimals decodes by the default rule, but for LE16. -/
theorem vDec_of_scale_eq_zero {k : Kind} (integral : scale k = 0) (unswapped : k ≠ .le16)
    (raw : Word16) : vDec k raw = decRaw raw := by
  cases k with
  | dec1 | dec2 | dec3 => cases integral
  | le16 => exact absurd rfl unswapped
  | _ => rfl

/-! ### The fixed-point rule (R127) -/

/-- The range R127 states: of the signed 16-bit values, the sentinel takes up the least. -/
theorem toInt_mem_of_ne_noValue {raw : Word16} (present : raw ≠ noValue) :
    -32767 ≤ raw.toInt ∧ raw.toInt ≤ 32767 := by
  have notLeast : raw.toInt ≠ -32768 := fun h => present (BitVec.eq_of_toInt_eq h)
  have low : -2 ^ 15 ≤ raw.toInt := BitVec.le_toInt raw
  have high : raw.toInt < 2 ^ 15 := BitVec.toInt_lt
  omega

/-- Scaling a decoded fixed-point number back up gives the signed value of the word. -/
theorem s16_div_powTen_mul (n : Nat) (raw : Word16) :
    (s16 raw : Rat) / powTen n * 10 ^ n = (raw.toInt : Rat) := by
  rw [s16_eq_toInt, powTen, Nat.cast_pow, Nat.cast_ofNat, div_mul_cancel₀ _ (by positivity)]

/-! ### The swapped rule (R129) -/

/-- R44 over integers. -/
theorem be16_toNat (a b : Byte) : (be16 a b).toNat = a.toNat * 256 + b.toNat := by
  have append : (be16 a b).toNat = a.toNat <<< 8 ||| b.toNat := BitVec.toNat_append a b
  rw [append, ← Nat.shiftLeft_add_eq_or_of_lt b.isLt, Nat.shiftLeft_eq]

/-- R11 over integers. -/
theorem swap16_toNat (v : Word16) : (swap16 v).toNat = v.toNat % 256 * 256 + v.toNat / 256 := by
  have low : (lo8 v).toNat = v.toNat % 256 := by
    rw [lo8, BitVec.extractLsb'_toNat, Nat.shiftRight_zero]
  have high : (hi8 v).toNat = v.toNat / 256 := by
    rw [hi8, BitVec.extractLsb'_toNat, Nat.shiftRight_eq_div_pow]
    omega
  rw [swap16, be16_toNat, low, high]

/-- Only the sentinel swaps to 128 (R129), since swapping is its own inverse. -/
theorem swap16_toNat_ne_of_ne_noValue {raw : Word16} (present : raw ≠ noValue) :
    (swap16 raw).toNat ≠ 128 := by
  intro h
  have swapped : swap16 raw = 0x0080 := BitVec.eq_of_toNat_eq h
  exact present (by rw [← swap16_swap16 raw, swapped]; rfl)

/-! ### The obligations -/

/-- Settles O28: the rule of R127 at the scale of the kind. -/
theorem fixedPointDecodeDivides : Obligations.FixedPointDecodeDivides := by
  intro s k n kind
  obtain ⟨rfl, decimals⟩ : scale k = n ∧ scale k ≠ 0 := by
    simp only [List.mem_cons, Prod.mk.injEq, List.not_mem_nil, or_false] at kind
    obtain ⟨rfl, rfl⟩ | ⟨rfl, rfl⟩ | ⟨rfl, rfl⟩ := kind <;> decide
  obtain ⟨t, answer, frame, result⟩ := vDecOf_answers k s
  refine ⟨t, answer, frame, ?_⟩
  rw [result, vDec_of_scale_ne_zero decimals]
  rcases decFixed_cases (scale k) s.req.raw with ⟨missing, nan⟩ | ⟨present, number⟩
  · exact ⟨fun _ => nan, fun present => absurd missing present⟩
  · obtain ⟨low, high⟩ := toInt_mem_of_ne_noValue present
    refine ⟨fun missing => absurd missing present, fun _ =>
      ⟨_, number, s16_div_powTen_mul _ _, ?_, ?_⟩⟩
    · rw [s16_div_powTen_mul]; exact_mod_cast low
    · rw [s16_div_powTen_mul]; exact_mod_cast high

/-- Settles O29: the listed kinds have no decimals and are not LE16, so they use the rule of R128. -/
theorem rawDecodeIsUnsigned : Obligations.RawDecodeIsUnsigned := by
  intro s k kind
  obtain ⟨integral, unswapped⟩ : scale k = 0 ∧ k ≠ .le16 := by revert k; decide
  obtain ⟨t, answer, frame, result⟩ := vDecOf_answers k s
  refine ⟨t, answer, frame, ?_⟩
  rw [result, vDec_of_scale_eq_zero integral unswapped]
  rcases decRaw_cases s.req.raw with ⟨missing, nan⟩ | ⟨present, number⟩
  · exact ⟨fun _ => nan, fun present => absurd missing present⟩
  · have bounded : s.req.raw.toNat ≤ 65535 := Nat.le_of_lt_succ s.req.raw.isLt
    have notSentinel : s.req.raw.toNat ≠ 32768 := fun h => present (BitVec.eq_of_toNat_eq h)
    exact ⟨fun missing => absurd missing present, fun _ => ⟨number, bounded, notSentinel⟩⟩

/-- Settles O31: the rule of R129, with the swapped word over integers. -/
theorem swappedDecodeSwapsBytes : Obligations.SwappedDecodeSwapsBytes := by
  intro s
  obtain ⟨t, answer, frame, result⟩ := vDecOf_answers .le16 s
  have swaps : t.resp.reng = decSwap s.req.raw := result
  refine ⟨t, answer, frame, ?_⟩
  rw [swaps]
  rcases decSwap_cases s.req.raw with ⟨missing, nan⟩ | ⟨present, number⟩
  · refine ⟨fun _ => nan, fun present => absurd missing present, fun h => ?_⟩
    exact absurd (missing.symm.trans h) (by decide)
  · rw [number]
    refine ⟨fun missing => absurd missing present, fun _ => ⟨?_, fun h => ?_⟩, fun h => ?_⟩
    · rw [swap16_toNat, Int.cast_natCast]
    · have h128 : (((swap16 s.req.raw).toNat : Int) : Rat) = 128 := Eng.fin.inj h
      exact swap16_toNat_ne_of_ne_noValue present (by exact_mod_cast h128)
    · have swapped : (swap16 s.req.raw).toNat = 32768 := by rw [h]; rfl
      rw [swapped]; norm_num

end Sys2Proof.Machine
end

section
/-! Word combination, most significant word first (spec/43_word_combination.md, R171 and R172): the two
operations answer with `combineTwo` and `combineThree` of the presented words, and these give the
printed sum on numbers and NaN as soon as a required word is missing (R175). -/

namespace Sys2Proof.Machine

/-! ### Two and three words (R175) -/

/-- R171 on numbers. -/
theorem combineTwo_fin (high low : Rat) :
    combineTwo (.fin high) (.fin low) = .fin (high * 1000 + low) := rfl

/-- A missing word excludes the case of `combineTwo_cases` in which both are numbers. -/
theorem combineTwo_of_missing {high low : Eng} (missing : high = .nan ∨ low = .nan) :
    combineTwo high low = .nan := by
  rcases combineTwo_cases high low with ⟨x, y, rfl, rfl, -⟩ | ⟨-, nan⟩
  · simp at missing
  · exact nan

/-- R172 on numbers. -/
theorem combineThree_fin (high mid low : Rat) :
    combineThree (.fin high) (.fin mid) (.fin low) = .fin (high * 1000000 + mid * 1000 + low) := rfl

/-- A missing word excludes the case of `combineThree_cases` in which all three are numbers. -/
theorem combineThree_of_missing {high mid low : Eng}
    (missing : high = .nan ∨ mid = .nan ∨ low = .nan) : combineThree high mid low = .nan := by
  rcases combineThree_cases high mid low with ⟨x, y, z, rfl, rfl, rfl, -⟩ | ⟨-, nan⟩
  · simp at missing
  · exact nan

/-! ### The operations -/

/-- V.COMB.DOUBLE answers on every operand; `w2` does not occur in its result. -/
theorem vCombDouble_answers (s : State) :
    ∃ t, exec .vCombDouble s = .next t ∧ OnlyPorts s t ∧
      t.resp.reng = combineTwo s.req.w0 s.req.w1 :=
  ⟨_, exec_vCombDouble s, answered_onlyPorts _ s, rfl⟩

/-- V.COMB.TRIPLE answers on every operand. -/
theorem vCombTriple_answers (s : State) :
    ∃ t, exec .vCombTriple s = .next t ∧ OnlyPorts s t ∧
      t.resp.reng = combineThree s.req.w0 s.req.w1 s.req.w2 :=
  ⟨_, exec_vCombTriple s, answered_onlyPorts _ s, rfl⟩

/-! ### The obligation -/

/-- Settles O37: each operation answers with its combination, which is the sum on numbers and NaN when
a required word is missing. -/
theorem combineMostSignificantFirst : Obligations.CombineMostSignificantFirst := by
  intro s
  constructor
  · obtain ⟨t, answer, frame, result⟩ := vCombDouble_answers s
    refine ⟨t, answer, frame, fun a b high low => ?_, fun missing => ?_⟩
    · rw [result, high, low, combineTwo_fin]
    · rw [result, combineTwo_of_missing missing]
  · obtain ⟨t, answer, frame, result⟩ := vCombTriple_answers s
    refine ⟨t, answer, frame, fun a b c high mid low => ?_, fun missing => ?_⟩
    · rw [result, high, mid, low, combineThree_fin]
    · rw [result, combineThree_of_missing missing]

end Sys2Proof.Machine
end

section
/-! Masks, concatenations and the layouts of spec/30_encoding.md over integers: the fields that an encoding
lays side by side are quotients and remainders, so reading a field back is arithmetic. -/

namespace Sys2Proof.Machine

/-! ### Masks (R11) -/

/-- Masking the bits from `lo` to `lo + hi - 1` keeps that field of the number. -/
theorem and_fieldMask (n lo hi : Nat) :
    n &&& (2 ^ hi - 1) * 2 ^ lo = n / 2 ^ lo % 2 ^ hi * 2 ^ lo := by
  have high : (n &&& (2 ^ hi - 1) * 2 ^ lo) / 2 ^ lo = n / 2 ^ lo % 2 ^ hi := by
    rw [Nat.and_div_two_pow, Nat.mul_div_cancel _ (by positivity), Nat.and_two_pow_sub_one_eq_mod]
  have low : (n &&& (2 ^ hi - 1) * 2 ^ lo) % 2 ^ lo = 0 := by
    rw [Nat.and_mod_two_pow, Nat.mul_mod_left, Nat.and_zero]
  rw [← high, Nat.div_mul_cancel (Nat.dvd_of_mod_eq_zero low)]

theorem and_0x3F (n : Nat) : n &&& 0x3F = n % 64 := Nat.and_two_pow_sub_one_eq_mod n 6

theorem and_0x7F (n : Nat) : n &&& 0x7F = n % 128 := Nat.and_two_pow_sub_one_eq_mod n 7

theorem and_0x7C0 (n : Nat) : n &&& 0x7C0 = n / 64 % 32 * 64 := and_fieldMask n 6 5

theorem and_0xF0 (n : Nat) : n &&& 0xF0 = n / 16 % 16 * 16 := and_fieldMask n 4 4

/-! ### Concatenation (R44, R66) -/

/-- The upper field of a concatenation counts in units of the lower one. -/
theorem append_toNat {m n : Nat} (x : BitVec m) (y : BitVec n) :
    (x ++ y).toNat = x.toNat * 2 ^ n + y.toNat := by
  rw [BitVec.toNat_append, ← Nat.shiftLeft_add_eq_or_of_lt y.isLt, Nat.shiftLeft_eq]

/-! ### Identifiers (R66, R110 to R112) -/

/-- R66 over integers: the printed layout of an identifier. -/
theorem idLayout_toNat (a : Addr) (x : IdTag) :
    (idLayout a x).toNat = a.toNat / 64 * 2048 + x.bits.toNat * 256 + a.toNat % 64 := by
  have below : a.toNat < 2048 := a.isLt
  have tag : x.bits.toNat < 4 := x.bits.isLt
  have bits : (idLayout a x).toNat = (a.extractLsb' 6 5).toNat * 2 ^ 11 +
      (0 * 2 ^ 10 + (x.bits.toNat * 2 ^ 8 + (0 * 2 ^ 6 + (a.extractLsb' 0 6).toNat))) := by
    rw [idLayout, append_toNat, append_toNat, append_toNat, append_toNat]; rfl
  rw [bits, BitVec.extractLsb'_toNat, BitVec.extractLsb'_toNat, Nat.shiftRight_zero,
    Nat.shiftRight_eq_div_pow]
  omega

/-- R110 over integers, without masks: the bits from 6 on move up by 5 places. -/
theorem writeId_toNat_fields (a : Addr) :
    (writeId a).toNat = a.toNat / 64 * 2048 + a.toNat % 64 := by
  have below : a.toNat < 2048 := a.isLt
  have fields : ((a.toNat &&& 0x7C0) <<< 5) = (a.toNat / 64) <<< 11 := by
    rw [and_0x7C0, Nat.shiftLeft_eq, Nat.shiftLeft_eq]; omega
  rw [writeId_toNat, fields, and_0x3F, ← Nat.shiftLeft_add_eq_or_of_lt (by omega), Nat.shiftLeft_eq]

/-- A tag bit set in an identifier is added: its bits 10:6 are clear (R110). -/
theorem writeId_or_tag (a : Addr) {t : Nat} (ht : t < 4) :
    (writeId a).toNat ||| t * 256 = a.toNat / 64 * 2048 + t * 256 + a.toNat % 64 := by
  have upper : (writeId a).toNat = (a.toNat / 64) <<< 11 ||| a.toNat % 64 := by
    rw [writeId_toNat_fields, ← Nat.shiftLeft_add_eq_or_of_lt (by omega), Nat.shiftLeft_eq]
  have lower : t <<< 8 ||| a.toNat % 64 = t * 256 + a.toNat % 64 := by
    rw [← Nat.shiftLeft_add_eq_or_of_lt (by omega), Nat.shiftLeft_eq]
  calc (writeId a).toNat ||| t * 256
      = (a.toNat / 64) <<< 11 ||| (t <<< 8 ||| a.toNat % 64) := by
        rw [upper, Nat.or_assoc, Nat.or_comm (a.toNat % 64), Nat.shiftLeft_eq t]
    _ = (a.toNat / 64) <<< 11 + (t * 256 + a.toNat % 64) := by
        rw [lower, ← Nat.shiftLeft_add_eq_or_of_lt (by omega)]
    _ = a.toNat / 64 * 2048 + t * 256 + a.toNat % 64 := by
        rw [Nat.shiftLeft_eq, Nat.add_assoc]

/-- The formulas of R110 to R112 give the layout R66 prints. -/
theorem idOf_eq_idLayout (x : IdTag) (a : Addr) : idOf x a = idLayout a x := by
  apply BitVec.eq_of_toNat_eq
  rw [idLayout_toNat]
  cases x with
  | write => rw [idOf, writeId_toNat_fields]; simp [IdTag.bits]
  | read => rw [idOf, readId_toNat]; exact writeId_or_tag a (t := 1) (by decide)
  | response => rw [idOf, responseId_toNat]; exact writeId_or_tag a (t := 2) (by decide)

theorem readId_eq_idLayout (a : Addr) : readId a = idLayout a .read := idOf_eq_idLayout .read a

theorem writeId_eq_idLayout (a : Addr) : writeId a = idLayout a .write := idOf_eq_idLayout .write a

/-- An identifier's number, by its address and its tag. -/
theorem idOf_toNat (x : IdTag) (a : Addr) :
    (idOf x a).toNat = a.toNat / 64 * 2048 + x.bits.toNat * 256 + a.toNat % 64 := by
  rw [idOf_eq_idLayout, idLayout_toNat]

/-- The address of an identifier word, over integers (R66). -/
theorem idAddr_toNat (id : Word16) : (idAddr id).toNat = id.toNat / 2048 * 64 + id.toNat % 64 := by
  have below : id.toNat < 65536 := id.isLt
  rw [idAddr, append_toNat, BitVec.extractLsb'_toNat, BitVec.extractLsb'_toNat, Nat.shiftRight_zero,
    Nat.shiftRight_eq_div_pow]
  omega

/-- The bits of an identifier that R66 prints as 0. -/
theorem idFixedOk_iff (id : Word16) :
    idFixedOk id = true ↔ id.toNat / 1024 % 2 = 0 ∧ id.toNat / 64 % 4 = 0 := by
  simp only [idFixedOk, Bool.and_eq_true, beq_iff_eq, ← BitVec.toNat_inj, BitVec.extractLsb'_toNat,
    Nat.shiftRight_eq_div_pow]
  rfl

/-- The field `t` of an identifier word, over integers (R66). -/
theorem idTagField_toNat (id : Word16) : (id.extractLsb' 8 2).toNat = id.toNat / 256 % 4 := by
  rw [BitVec.extractLsb'_toNat, Nat.shiftRight_eq_div_pow]

/-! ### Identifier words -/

theorem idAddr_idLayout (a : Addr) (x : IdTag) : idAddr (idLayout a x) = a := by
  apply BitVec.eq_of_toNat_eq
  have tag : x.bits.toNat < 4 := x.bits.isLt
  rw [idAddr_toNat, idLayout_toNat]
  omega

theorem idFixedOk_idLayout (a : Addr) (x : IdTag) : idFixedOk (idLayout a x) = true := by
  have tag : x.bits.toNat < 4 := x.bits.isLt
  have low : x.bits.toNat * 256 + a.toNat % 64 < 1024 := by omega
  rw [idFixedOk_iff, idLayout_toNat]
  constructor
  · rw [Nat.add_assoc]; omega
  · omega

theorem idTagField_idLayout (a : Addr) (x : IdTag) :
    ((idLayout a x).extractLsb' 8 2).toNat = x.bits.toNat := by
  have tag : x.bits.toNat < 4 := x.bits.isLt
  rw [idTagField_toNat, idLayout_toNat]
  omega

/-- Reading back the layout of an identifier (R66). -/
theorem decodeIdentifier_idLayout (a : Addr) (x : IdTag) :
    decodeIdentifier (idLayout a x) = .ok (.id16 a x) := by
  rw [decodeIdentifier, if_pos (idFixedOk_idLayout a x), idTagField_idLayout, idAddr_idLayout]
  cases x <;> rfl

/-- A word with the fixed bits of R66 is the layout of its address and its tag. -/
theorem idLayout_idAddr {id : Word16} {x : IdTag} (fixed : idFixedOk id = true)
    (tag : (id.extractLsb' 8 2).toNat = x.bits.toNat) : idLayout (idAddr id) x = id := by
  apply BitVec.eq_of_toNat_eq
  have below : id.toNat < 65536 := id.isLt
  rw [idFixedOk_iff] at fixed
  rw [idTagField_toNat] at tag
  rw [idLayout_toNat, idAddr_toNat, ← tag]
  omega

/-- Everything an identifier word can decode to (R66). -/
theorem decodeIdentifier_ok {id : Word16} {i : Instr} (h : decodeIdentifier id = .ok i) :
    ∃ a x, i = .id16 a x ∧ idLayout a x = id := by
  rw [decodeIdentifier] at h
  split at h
  case isFalse => cases h
  case isTrue fixed =>
    split at h
    case h_1 tag => cases h; exact ⟨_, _, rfl, idLayout_idAddr fixed tag⟩
    case h_2 tag => cases h; exact ⟨_, _, rfl, idLayout_idAddr fixed tag⟩
    case h_3 tag => cases h; exact ⟨_, _, rfl, idLayout_idAddr fixed tag⟩
    case h_4 => cases h

/-! ### Payload layouts (R61, R62, R69) -/

theorem append_highNibble_lowNibble (b : Byte) : highNibble b ++ lowNibble b = b := by
  apply BitVec.eq_of_toNat_eq
  have below : b.toNat < 256 := b.isLt
  rw [append_toNat, highNibble, lowNibble, BitVec.extractLsb'_toNat, BitVec.extractLsb'_toNat,
    Nat.shiftRight_zero, Nat.shiftRight_eq_div_pow]
  omega

/-- The fields of R61 as seven bytes. -/
theorem frameExtBytes_eq (r k : Nibble) (l : Byte) (ix v : Word16) :
    frameExtBytes r k l ix v = [r ++ k, l, marker, hi8 ix, lo8 ix, hi8 v, lo8 v] := by
  rw [frameExtBytes, extendedBytes, hi8_be16, lo8_be16]

theorem decodeReceived_frameExtBytes (r k : Nibble) (l : Byte) (ix v : Word16) :
    decodeReceived (frameExtBytes r k l ix v) = .ok (.frameExt r k l ix v) := by
  simp [frameExtBytes_eq, decodeReceived]

theorem shortFormOk_iff (ix : Byte) (rest : List Byte) :
    shortFormOk ix rest = true ↔ ix ≠ marker ∧ rest.length ≤ 4 := by
  simp [shortFormOk, marker]

theorem decodeReceived_frameShortBytes (r k : Nibble) (l ix : Byte) (rest : List Byte)
    (wf : shortFormOk ix rest = true) :
    decodeReceived (frameShortBytes r k l ix rest) = .ok (.frameShort r k l ix rest) := by
  obtain ⟨unmarked, short⟩ := (shortFormOk_iff ix rest).mp wf
  simp [frameShortBytes, decodeReceived, unmarked, short]

theorem decodeBuilt_read (a : Addr) (ix : Word16) :
    decodeBuilt (extendedBytes (idLayout a .read) ix 0) = .ok (.frameRd a ix) := by
  simp [extendedBytes, decodeBuilt, decodeIdentifier_idLayout]

theorem decodeBuilt_write (a : Addr) (ix v : Word16) :
    decodeBuilt (extendedBytes (idLayout a .write) ix v) = .ok (.frameWr a ix v) := by
  simp [extendedBytes, decodeBuilt, decodeIdentifier_idLayout]

/-- Settles O12: the 49 command words are closed; each wire layout reads its own fields back. -/
theorem decodeOfEncodeIsIdentity : Obligations.DecodeOfEncodeIsIdentity := by
  intro i wf
  cases i with
  | frameExt r k l ix v => exact decodeReceived_frameExtBytes r k l ix v
  | frameShort r k l ix rest => exact decodeReceived_frameShortBytes r k l ix rest wf
  | frameRd a ix => exact decodeBuilt_read a ix
  | frameWr a ix v => exact decodeBuilt_write a ix v
  | id16 a x => exact decodeIdentifier_idLayout a x
  | _ => rfl

end Sys2Proof.Machine
end

section
/-! Command words (spec/30_encoding.md R71 to R76): which words name an operation, and that a word which
does is the encoding of that operation; with it, when the step of a command request is refused (R235). -/

namespace Sys2Proof.Machine

/-! ### Kind tags (R72, R73) -/

theorem kindOfTag_tag (k : Kind) : kindOfTag k.tag = some k := by cases k <;> rfl

theorem tag_lt (k : Kind) : k.tag.toNat < 19 := by cases k <;> decide

/-- A tag names a kind, and then is the tag of that kind, exactly when it is below 19 (R73). -/
theorem kindOfTag_cases (tag : BitVec 5) :
    (19 ≤ tag.toNat ∧ kindOfTag tag = none) ∨ (∃ k : Kind, k.tag = tag ∧ kindOfTag tag = some k) := by
  by_cases reserved : 19 ≤ tag.toNat
  · refine .inl ⟨reserved, ?_⟩
    unfold kindOfTag
    split
    case h_20 => rfl
    all_goals omega
  · refine .inr ?_
    have named : ∀ n : Fin 19, ∃ k : Kind, k.tag = BitVec.ofNat 5 n := by
      intro n
      fin_cases n
      exacts [⟨.defaultRaw, rfl⟩, ⟨.dec1, rfl⟩, ⟨.dec2, rfl⟩, ⟨.dec3, rfl⟩, ⟨.byte, rfl⟩, ⟨.bool, rfl⟩,
        ⟨.leBool, rfl⟩, ⟨.double, rfl⟩, ⟨.triple, rfl⟩, ⟨.invDouble, rfl⟩, ⟨.invTriple, rfl⟩,
        ⟨.le16, rfl⟩, ⟨.mode, rfl⟩, ⟨.time, rfl⟩, ⟨.date, rfl⟩, ⟨.domain, rfl⟩, ⟨.devnum, rfl⟩,
        ⟨.errnum, rfl⟩, ⟨.devid, rfl⟩]
    obtain ⟨k, isTag⟩ := named ⟨tag.toNat, by omega⟩
    rw [BitVec.ofNat_toNat, BitVec.setWidth_eq] at isTag
    exact ⟨k, isTag, by rw [← isTag, kindOfTag_tag]⟩

/-- V.COMB exists exactly for the tags 7 to 10 (R74, R177). -/
theorem vCombOf_isSome (k : Kind) : (vCombOf k).isSome ↔ 7 ≤ k.tag.toNat ∧ k.tag.toNat ≤ 10 := by
  cases k <;> decide

/-! ### Encoding of the operations with a kind -/

theorem encode_vEncOf (k : Kind) : encode (vEncOf k) = commandWord 8 k.tag := by cases k <;> rfl

theorem encode_vDecOf (k : Kind) : encode (vDecOf k) = commandWord 9 k.tag := by cases k <;> rfl

theorem encode_of_vCombOf {k : Kind} {i : Instr} (h : vCombOf k = some i) :
    encode i = commandWord 10 k.tag ∧ i.WellFormed := by
  cases k with
  | double | triple | invDouble | invTriple => cases h; exact ⟨rfl, rfl⟩
  | _ => cases h

theorem wellFormed_vEncOf (k : Kind) : (vEncOf k).WellFormed := by cases k <;> rfl

theorem wellFormed_vDecOf (k : Kind) : (vDecOf k).WellFormed := by cases k <;> rfl

/-! ### What the parts of the decoder answer -/

theorem kindless_ok {tag : BitVec 5} {i j : Instr} (h : kindless tag i = .ok j) : tag = 0 ∧ j = i := by
  unfold kindless at h
  split at h
  case isTrue zero => cases h; exact ⟨zero, rfl⟩
  case isFalse => cases h

theorem withKind_ok {tag : BitVec 5} {f : Kind → Except DecodeError Instr} {i : Instr}
    (h : withKind tag f = .ok i) : ∃ k : Kind, k.tag = tag ∧ f k = .ok i := by
  rcases kindOfTag_cases tag with ⟨-, unnamed⟩ | ⟨k, isTag, named⟩
  · rw [withKind, unnamed] at h; cases h
  · rw [withKind, named] at h; exact ⟨k, isTag, h⟩

theorem combine?_ok {k : Kind} {i : Instr} (h : combine? k = .ok i) : vCombOf k = some i := by
  unfold combine? at h
  split at h
  case h_1 j combines => cases h; exact combines
  case h_2 => cases h

/-- A command word is its two fields side by side (R71). -/
theorem command_fields (cmd : BitVec 9) : cmd.extractLsb' 5 4 ++ cmd.extractLsb' 0 5 = cmd := by
  apply BitVec.eq_of_toNat_eq
  have below : cmd.toNat < 512 := cmd.isLt
  rw [append_toNat, BitVec.extractLsb'_toNat, BitVec.extractLsb'_toNat, Nat.shiftRight_zero,
    Nat.shiftRight_eq_div_pow]
  omega

/-- The word over given fields of a command word is that word. -/
theorem commandWord_eq {cmd : BitVec 9} {op : BitVec 4} {tag : BitVec 5}
    (hop : cmd.extractLsb' 5 4 = op) (htag : cmd.extractLsb' 0 5 = tag) :
    commandWord op tag = .command cmd := by
  subst hop htag
  exact congrArg Presented.command (command_fields cmd)

/-- A command word that decodes is the encoding of what it decodes to (R71 to R76). -/
theorem encode_of_decodeCommand {cmd : BitVec 9} {i : Instr} (h : decodeCommand cmd = .ok i) :
    encode i = .command cmd ∧ i.WellFormed := by
  have op (n : Fin 16) (hn : (cmd.extractLsb' 5 4).toNat = n) :
      cmd.extractLsb' 5 4 = BitVec.ofNat 4 n := by
    rw [← hn, BitVec.ofNat_toNat, BitVec.setWidth_eq]
  have withoutKind (j : Instr) (n : Fin 16) (hn : (cmd.extractLsb' 5 4).toNat = n)
      (word : encode j = commandWord (BitVec.ofNat 4 n) 0) (wf : j.WellFormed)
      (h : kindless (cmd.extractLsb' 0 5) j = .ok i) : encode i = .command cmd ∧ i.WellFormed := by
    obtain ⟨zero, rfl⟩ := kindless_ok h
    exact ⟨word.trans (commandWord_eq (op n hn) zero), wf⟩
  simp only [decodeCommand] at h
  split at h
  case h_1 hn => exact withoutKind .fdec 1 hn rfl rfl h
  case h_2 hn => exact withoutKind .fencRd 2 hn rfl rfl h
  case h_3 hn => exact withoutKind .fencWr 3 hn rfl rfl h
  case h_4 hn => exact withoutKind .aWid 4 hn rfl rfl h
  case h_5 hn => exact withoutKind .aRid 5 hn rfl rfl h
  case h_6 hn => exact withoutKind .aRsp 6 hn rfl rfl h
  case h_7 hn => exact withoutKind .aRcv 7 hn rfl rfl h
  case h_8 hn =>
    obtain ⟨k, isTag, ok⟩ := withKind_ok h
    cases ok
    exact ⟨(encode_vEncOf k).trans (commandWord_eq (op 8 hn) isTag.symm), wellFormed_vEncOf k⟩
  case h_9 hn =>
    obtain ⟨k, isTag, ok⟩ := withKind_ok h
    cases ok
    exact ⟨(encode_vDecOf k).trans (commandWord_eq (op 9 hn) isTag.symm), wellFormed_vDecOf k⟩
  case h_10 hn =>
    obtain ⟨k, isTag, ok⟩ := withKind_ok h
    obtain ⟨word, wf⟩ := encode_of_vCombOf (combine?_ok ok)
    exact ⟨word.trans (commandWord_eq (op 10 hn) isTag.symm), wf⟩
  case h_11 => cases h

/-! ### Payload words -/

theorem encode_of_decodeReceived {p : List Byte} {i : Instr} (h : decodeReceived p = .ok i) :
    encode i = .received p ∧ i.WellFormed := by
  unfold decodeReceived at h
  split at h
  case h_2 => cases h
  case h_1 b0 b1 b2 rest =>
    split at h
    case isTrue marked =>
      split at h
      case h_2 => cases h
      case h_1 b3 b4 b5 b6 =>
        cases h
        refine ⟨?_, rfl⟩
        simp [encode, frameExtBytes_eq, append_highNibble_lowNibble, marked]
    case isFalse unmarked =>
      split at h
      case isFalse => cases h
      case isTrue short =>
        cases h
        refine ⟨?_, (shortFormOk_iff b2 rest).mpr ⟨unmarked, short⟩⟩
        simp [encode, frameShortBytes, append_highNibble_lowNibble]

theorem encode_of_decodeBuilt {p : List Byte} {i : Instr} (h : decodeBuilt p = .ok i) :
    encode i = .built p ∧ i.WellFormed := by
  unfold decodeBuilt at h
  split at h
  case h_2 => cases h
  case h_1 b0 b1 b2 b3 b4 b5 b6 =>
    split at h
    case isFalse => cases h
    case isTrue marked =>
      subst marked
      split at h
      case h_3 => cases h
      case h_1 a decoded =>
        obtain ⟨_, _, same, layout⟩ := decodeIdentifier_ok decoded
        cases same
        split at h
        case isFalse => cases h
        case isTrue zero =>
          cases h
          refine ⟨?_, rfl⟩
          rw [encode, layout, ← zero, extendedBytes]
          simp only [hi8_be16, lo8_be16]
      case h_2 a decoded =>
        obtain ⟨_, _, same, layout⟩ := decodeIdentifier_ok decoded
        cases same
        cases h
        refine ⟨?_, rfl⟩
        rw [encode, layout, extendedBytes]
        simp only [hi8_be16, lo8_be16]

/-- Settles O13: each of the four forms is read by a decoder that checks every bit it does not keep. -/
theorem encodeOfDecodeIsIdentity : Obligations.EncodeOfDecodeIsIdentity := by
  intro p i h
  cases p with
  | command cmd => exact encode_of_decodeCommand h
  | received payload => exact encode_of_decodeReceived h
  | built payload => exact encode_of_decodeBuilt h
  | identifier id =>
    obtain ⟨a, x, rfl, layout⟩ := decodeIdentifier_ok h
    exact ⟨congrArg Presented.identifier layout, rfl⟩

/-- Settles O14: thirteen closed words. -/
theorem tableWordsDecode : Obligations.TableWordsDecode :=
  ⟨rfl, rfl, rfl, rfl, rfl, rfl, rfl, rfl, rfl, rfl, rfl, rfl, rfl⟩

/-! ### Reserved command words (R73, R74, R76, R177) -/

/-- The reserved command words: the four cases of item U8 in R235. -/
def reservedCommand (cmd : BitVec 9) : Prop :=
  let op := cmd.toNat / 32
  let tag := cmd.toNat % 32
  (op = 0 ∨ 11 ≤ op) ∨ ((op = 8 ∨ op = 9) ∧ 19 ≤ tag) ∨ (op = 10 ∧ ¬ (7 ≤ tag ∧ tag ≤ 10)) ∨
    (1 ≤ op ∧ op ≤ 7 ∧ tag ≠ 0)

/-- R235: a reserved word, or a payload operation with a length above 8 (item U7). -/
theorem refusedByRule_iff (cmd : BitVec 9) (len : BitVec 4) :
    refusedByRule cmd len ↔
      reservedCommand cmd ∨ ((cmd.toNat / 32 = 1 ∨ cmd.toNat / 32 = 7) ∧ 9 ≤ len.toNat) := by
  simp only [refusedByRule, reservedCommand, or_assoc]

/-- A decoding is an error if a condition holds, and names an instruction if not. -/
def ErrorExactlyWhen (p : Prop) (d : Except DecodeError Instr) : Prop :=
  (p ∧ ∃ e, d = .error e) ∨ (¬ p ∧ ∃ i, d = .ok i)

theorem ErrorExactlyWhen.of_iff {p q : Prop} {d : Except DecodeError Instr}
    (h : ErrorExactlyWhen p d) (same : p ↔ q) : ErrorExactlyWhen q d := by
  rwa [ErrorExactlyWhen, ← same]

theorem kindless_error (tag : BitVec 5) (i : Instr) :
    ErrorExactlyWhen (tag.toNat ≠ 0) (kindless tag i) := by
  have zero : tag.toNat = 0 ↔ tag = 0 := BitVec.toNat_inj (y := 0)
  rw [ErrorExactlyWhen, kindless, Ne, zero]
  by_cases h : tag = 0
  · exact .inr ⟨not_not.mpr h, i, if_pos h⟩
  · exact .inl ⟨h, _, if_neg h⟩

theorem withKind_error (tag : BitVec 5) (f : Kind → Instr) :
    ErrorExactlyWhen (19 ≤ tag.toNat) (withKind tag fun k => .ok (f k)) := by
  rcases kindOfTag_cases tag with ⟨reserved, unnamed⟩ | ⟨k, rfl, named⟩
  · exact .inl ⟨reserved, _, by rw [withKind, unnamed]⟩
  · exact .inr ⟨Nat.not_le.mpr (tag_lt k), f k, by rw [withKind, named]⟩

theorem withKind_combine?_error (tag : BitVec 5) :
    ErrorExactlyWhen (¬ (7 ≤ tag.toNat ∧ tag.toNat ≤ 10)) (withKind tag combine?) := by
  rcases kindOfTag_cases tag with ⟨reserved, unnamed⟩ | ⟨k, rfl, named⟩
  · exact .inl ⟨by omega, _, by rw [withKind, unnamed]⟩
  · rw [← vCombOf_isSome, withKind, named]
    cases h : vCombOf k with
    | none => exact .inl ⟨by simp, .notCombinable k, by simp [combine?, h]⟩
    | some i => exact .inr ⟨by simp, i, by simp [combine?, h]⟩

/-- A command word decodes unless it is reserved (R73, R74, R76, R177). -/
theorem decodeCommand_error (cmd : BitVec 9) :
    ErrorExactlyWhen (reservedCommand cmd) (decodeCommand cmd) := by
  have below : cmd.toNat < 512 := cmd.isLt
  have hop : (cmd.extractLsb' 5 4).toNat = cmd.toNat / 32 := by
    rw [BitVec.extractLsb'_toNat, Nat.shiftRight_eq_div_pow]; omega
  have htag : (cmd.extractLsb' 0 5).toNat = cmd.toNat % 32 := by
    rw [BitVec.extractLsb'_toNat, Nat.shiftRight_zero]
  have withoutKind (i : Instr) (low : 1 ≤ cmd.toNat / 32) (high : cmd.toNat / 32 ≤ 7) :
      ErrorExactlyWhen (reservedCommand cmd) (kindless (cmd.extractLsb' 0 5) i) := by
    refine (kindless_error _ i).of_iff ?_
    simp only [htag, reservedCommand]
    omega
  simp only [decodeCommand]
  split
  case h_8 | h_9 =>
    refine (withKind_error _ _).of_iff ?_
    simp only [htag, reservedCommand]
    omega
  case h_10 =>
    refine (withKind_combine?_error _).of_iff ?_
    simp only [htag, reservedCommand]
    omega
  case h_11 ne1 ne2 ne3 ne4 ne5 ne6 ne7 ne8 ne9 ne10 =>
    have unselected : cmd.toNat / 32 = 0 ∨ 11 ≤ cmd.toNat / 32 := by
      rw [hop, imp_false] at ne1 ne2 ne3 ne4 ne5 ne6 ne7 ne8 ne9 ne10
      omega
    exact .inl ⟨.inl unselected, _, rfl⟩
  all_goals exact withoutKind _ (by omega) (by omega)

/-! ### The step of a command request -/

/-- Among the operations, FDEC and A.RCV are `op` 1 and 7 (R75). -/
theorem readsPayload_iff_of_encode {cmd : BitVec 9} {i : Instr} (h : encode i = .command cmd) :
    readsPayload i = true ↔ cmd.toNat / 32 = 1 ∨ cmd.toNat / 32 = 7 := by
  cases i with
  | frameExt | frameShort | frameRd | frameWr | id16 => cases h
  | _ => cases h; decide

/-- FDEC of a payload above 8 bytes (R43). -/
theorem exec_fdec_of_gt {s : State} (h : 8 < s.req.len.toNat) :
    exec .fdec s = .refused (.payloadLength s.req.len.toNat) := by
  rw [exec_fdec, execFdec, withPayload_of_gt h]

/-- A.RCV of a payload above 8 bytes (R43). -/
theorem exec_aRcv_of_gt {s : State} (h : 8 < s.req.len.toNat) :
    exec .aRcv s = .refused (.payloadLength s.req.len.toNat) := by
  rw [exec_aRcv, execARcv, withPayload_of_gt h]

/-- Among the operations, FDEC and A.RCV read the payload port. -/
theorem eq_fdec_or_aRcv {cmd : BitVec 9} {i : Instr} (h : encode i = .command cmd)
    (reads : readsPayload i = true) : i = .fdec ∨ i = .aRcv := by
  cases i with
  | fdec => exact .inl rfl
  | aRcv => exact .inr rfl
  | frameShort => cases h
  | _ => cases reads

/-- An operation is refused exactly when it reads a payload port of more than 8 bytes (R43). -/
theorem exec_operation_cases {cmd : BitVec 9} {i : Instr} (h : encode i = .command cmd) (s : State) :
    (readsPayload i = true ∧ 8 < s.req.len.toNat ∧ ∃ e, exec i s = .refused e) ∨
    (¬ (readsPayload i = true ∧ 8 < s.req.len.toNat) ∧ ∃ f, exec i s = .next (s.answered f)) := by
  by_cases reads : readsPayload i = true
  · rcases eq_fdec_or_aRcv h reads with rfl | rfl
    · by_cases long : 8 < s.req.len.toNat
      · exact .inl ⟨reads, long, _, exec_fdec_of_gt long⟩
      · exact .inr ⟨by simp [long], _, execFdec_of_le (Nat.le_of_not_lt long)⟩
    · by_cases long : 8 < s.req.len.toNat
      · exact .inl ⟨reads, long, _, exec_aRcv_of_gt long⟩
      · exact .inr ⟨by simp [long], _, execARcv_of_le (Nat.le_of_not_lt long)⟩
  · exact .inr ⟨by simp [reads], exec_answers (by simpa using reads) s⟩

theorem step_request {s : State} {r : Request} {rest : List Input} (h : s.inputs = .request r :: rest) :
    step s = serve r (s.awaiting rest) := by rw [step, h]

/-- Settles O1. -/
theorem stepServesDecodedRequest : Obligations.StepServesDecodedRequest := by
  intro s r rest i next decoded
  rw [step_request next, serve, decoded]

/-- Settles O2: the word is reserved, or it decodes and the operation refuses by its length. -/
theorem stepRefusesExactlyTheReservedRequests : Obligations.StepRefusesExactlyTheReservedRequests := by
  intro s r rest cmd next word
  rw [refusedByRule_iff]
  rcases decodeCommand_error cmd with ⟨reserved, e, error⟩ | ⟨legal, i, ok⟩
  · have refused : step s = .refused (.reserved e) := by
      rw [step_request next, serve, word, decode, error]
    exact ⟨fun _ => ⟨_, refused⟩, fun legal => absurd (.inl reserved) legal⟩
  · have executed : step s = exec i ((s.awaiting rest).latched r) :=
      stepServesDecodedRequest s r rest i next (by rw [word, decode, ok])
    have encoded : encode i = .command cmd := (encode_of_decodeCommand ok).1
    rw [executed, ← readsPayload_iff_of_encode encoded]
    rcases exec_operation_cases encoded ((s.awaiting rest).latched r) with
      ⟨reads, long, refused⟩ | ⟨admitted, f, answered⟩
    · exact ⟨fun _ => refused, fun admitted => absurd (.inr ⟨reads, long⟩) admitted⟩
    · exact ⟨fun refused => absurd (refused.resolve_left legal) admitted,
        fun _ => ⟨_, answered, rfl, rfl⟩⟩

end Sys2Proof.Machine
end

section
/-! The FrameCodec (spec/40_frame_codec.md): what FDEC answers on the present lanes, on the frames FENC
builds and on the received layouts, and the identifiers as the first two bytes of a payload. -/

namespace Sys2Proof.Machine

/-! ### Bytes over integers (R11, R44) -/

theorem hi8_toNat (v : Word16) : (hi8 v).toNat = v.toNat / 256 := by
  have below : v.toNat < 65536 := v.isLt
  rw [hi8, BitVec.extractLsb'_toNat, Nat.shiftRight_eq_div_pow]
  omega

theorem lo8_toNat (v : Word16) : (lo8 v).toNat = v.toNat % 256 := by
  rw [lo8, BitVec.extractLsb'_toNat, Nat.shiftRight_zero]

theorem lowNibble_toNat (b : Byte) : (lowNibble b).toNat = b.toNat % 16 := by
  rw [lowNibble, BitVec.extractLsb'_toNat, Nat.shiftRight_zero]

/-- The more significant byte, as a shift prints it. -/
theorem shiftRight_setWidth_eq_hi8 (v : Word16) : (v >>> 8).setWidth 8 = hi8 v := by
  apply BitVec.eq_of_toNat_eq
  have below : v.toNat < 65536 := v.isLt
  rw [hi8_toNat, BitVec.toNat_setWidth, BitVec.toNat_ushiftRight, Nat.shiftRight_eq_div_pow]
  omega

/-- The less significant byte, as a truncation prints it. -/
theorem setWidth_eq_lo8 (v : Word16) : v.setWidth 8 = lo8 v := by
  apply BitVec.eq_of_toNat_eq
  rw [lo8_toNat, BitVec.toNat_setWidth]

/-- The mask of R91 keeps the low nibble. -/
theorem and_0x0F_toNat (b : Byte) : (b &&& 0x0F).toNat = (lowNibble b).toNat := by
  rw [lowNibble_toNat, BitVec.toNat_and]
  exact Nat.and_two_pow_sub_one_eq_mod b.toNat 4

theorem lowNibble_eq_two_iff (b : Byte) : lowNibble b = 2 ↔ b &&& 0x0F = 2 := by
  rw [← BitVec.toNat_inj, ← BitVec.toNat_inj, and_0x0F_toNat]; rfl

/-! ### The operation -/

/-- The ports of FDEC in a response (R90). -/
def Response.decoded (r : Response) : Decoded :=
  ⟨r.knib, r.kclass, r.confirm, r.rindex, r.rvalue, r.rcv⟩

/-- FDEC on a payload of legal length answers what `decodeFrame` gives of its bytes. -/
theorem fdec_answers {s : State} (h : s.req.len.toNat ≤ 8) :
    ∃ t, exec .fdec s = .next t ∧ OnlyPorts s t ∧ t.resp.decoded = decodeFrame s.req.bytes :=
  ⟨_, execFdec_of_le h, answered_onlyPorts _ s, rfl⟩

/-- A.RCV on a payload of legal length answers the receiver of its bytes. -/
theorem aRcv_answers {s : State} (h : s.req.len.toNat ≤ 8) :
    ∃ t, exec .aRcv s = .next t ∧ OnlyPorts s t ∧ t.resp.rcv = receiverOf s.req.bytes :=
  ⟨_, execARcv_of_le h, answered_onlyPorts _ s, rfl⟩

/-! ### Present lanes (R40 to R42) -/

/-- The present bytes are those of the present lanes alone (R42). -/
theorem bytes_congr {r₁ r₂ : Request} (len : r₁.len = r₂.len) (legal : r₁.len.toNat ≤ 8)
    (lanes : ∀ (i : Nat) (h : i < 8), i < r₁.len.toNat → r₁.B[i] = r₂.B[i]) :
    r₁.bytes = r₂.bytes := by
  apply List.ext_getElem
  · rw [bytes_length legal, bytes_length (len ▸ legal), len]
  · intro i present₁ _
    rw [bytes_length legal] at present₁
    simpa [Request.bytes] using lanes i (by omega) present₁

/-- Settles O17: both operations read the payload through its present bytes. -/
theorem absentLanesDoNotMatter : Obligations.AbsentLanesDoNotMatter := by
  intro s₁ s₂ len legal lanes
  have same : s₁.req.bytes = s₂.req.bytes := bytes_congr len legal lanes
  constructor
  · obtain ⟨t₁, answer₁, -, decoded₁⟩ := fdec_answers legal
    obtain ⟨t₂, answer₂, -, decoded₂⟩ := fdec_answers (s := s₂) (len ▸ legal)
    have equal : t₁.resp.decoded = t₂.resp.decoded := by rw [decoded₁, decoded₂, same]
    simp only [Response.decoded, Decoded.mk.injEq] at equal
    exact ⟨t₁, t₂, answer₁, answer₂, equal⟩
  · obtain ⟨t₁, answer₁, -, rcv₁⟩ := aRcv_answers legal
    obtain ⟨t₂, answer₂, -, rcv₂⟩ := aRcv_answers (s := s₂) (len ▸ legal)
    exact ⟨t₁, t₂, answer₁, answer₂, by rw [rcv₁, rcv₂, same]⟩

/-! ### The results on the present lanes (R91 to R94) -/

/-- The class of a nibble by its number (R64). -/
theorem classOf_of_toNat (k : Nibble) :
    (k.toNat = 0 → classOf k = .write) ∧ (k.toNat = 1 → classOf k = .ack) ∧
    (k.toNat = 2 → classOf k = .confirm) ∧ (3 ≤ k.toNat → classOf k = .other) := by
  have number (n : Nibble) : k = n ↔ k.toNat = n.toNat := BitVec.toNat_inj.symm
  simp only [classOf, number, BitVec.reduceToNat]
  refine ⟨fun h => ?_, fun h => ?_, fun h => ?_, fun h => ?_⟩
  · rw [if_pos h]
  · rw [if_neg (by omega), if_pos h]
  · rw [if_neg (by omega), if_neg (by omega), if_pos h]
  · rw [if_neg (by omega), if_neg (by omega), if_neg (by omega)]

theorem fieldAt_toNat (p : List Byte) (i : Nat) :
    (fieldAt p i).toNat = (byteAt p i).toNat * 256 + (byteAt p (i + 1)).toNat := be16_toNat _ _

/-- R92 on a presented payload. -/
theorem indexOf_bytes_toNat {r : Request} (h : r.len.toNat ≤ 8) :
    (indexOf r.bytes).toNat =
      (if r.len.toNat < 3 ∨ 7 < r.len.toNat then 0xFFFF
       else if r.B[2] = 0xFA then
        (if 5 ≤ r.len.toNat then r.B[3].toNat * 256 + r.B[4].toNat else 0xFFFF)
       else r.B[2].toNat) := by
  rw [indexOf, bytes_length h]
  by_cases outside : r.len.toNat < 3 ∨ 7 < r.len.toNat
  · rw [if_pos outside, if_pos outside]; rfl
  · have lane2 : byteAt r.bytes 2 = r.B[2] := byteAt_bytes (by omega) h
    rw [if_neg outside, if_neg outside, lane2, marker]
    by_cases marked : r.B[2] = 0xFA
    · rw [if_pos marked, if_pos marked]
      by_cases long : 5 ≤ r.len.toNat
      · have lane3 : byteAt r.bytes 3 = r.B[3] := byteAt_bytes (by omega) h
        have lane4 : byteAt r.bytes 4 = r.B[4] := byteAt_bytes (by omega) h
        rw [if_pos long, if_pos long, fieldAt_toNat, lane3, lane4]
      · rw [if_neg long, if_neg long]; rfl
    · rw [if_neg marked, if_neg marked]
      exact BitVec.toNat_setWidth_of_le (by decide)

/-- R93 on a presented payload. -/
theorem valueOf_bytes_toNat {r : Request} (h : r.len.toNat ≤ 8) :
    (valueOf r.bytes).toNat =
      (if r.len.toNat < 5 ∨ 7 < r.len.toNat then 0x8000
       else if r.B[2] = 0xFA then
        (if r.len.toNat = 7 then r.B[5].toNat * 256 + r.B[6].toNat else 0x8000)
       else r.B[3].toNat * 256 + r.B[4].toNat) := by
  rw [valueOf, bytes_length h]
  by_cases outside : r.len.toNat < 5 ∨ 7 < r.len.toNat
  · rw [if_pos outside, if_pos outside]; rfl
  · have lane2 : byteAt r.bytes 2 = r.B[2] := byteAt_bytes (by omega) h
    rw [if_neg outside, if_neg outside, lane2, marker]
    by_cases marked : r.B[2] = 0xFA
    · rw [if_pos marked, if_pos marked]
      by_cases full : r.len.toNat = 7
      · have lane5 : byteAt r.bytes 5 = r.B[5] := byteAt_bytes (by omega) h
        have lane6 : byteAt r.bytes 6 = r.B[6] := byteAt_bytes (by omega) h
        rw [if_pos full, if_pos full, fieldAt_toNat, lane5, lane6]
      · rw [if_neg full, if_neg full]; rfl
    · have lane3 : byteAt r.bytes 3 = r.B[3] := byteAt_bytes (by omega) h
      have lane4 : byteAt r.bytes 4 = r.B[4] := byteAt_bytes (by omega) h
      rw [if_neg marked, if_neg marked, fieldAt_toNat, lane3, lane4]

/-- The kind of a payload without bytes (D11). -/
theorem decodeFrame_kind_of_empty {p : List Byte} (h : p.length = 0) :
    (decodeFrame p).knib = none ∧ (decodeFrame p).kclass = .none ∧
      (decodeFrame p).confirm = false := by
  obtain rfl := List.length_eq_zero_iff.mp h
  exact ⟨rfl, rfl, rfl⟩

/-- The kind of a payload with a first byte (R91, R94). -/
theorem decodeFrame_kind_of_byte {p : List Byte} (h : p.length ≠ 0) :
    (decodeFrame p).knib = some (lowNibble (byteAt p 0)) ∧
      (decodeFrame p).kclass = classOf (lowNibble (byteAt p 0)) ∧
      (decodeFrame p).confirm = decide (lowNibble (byteAt p 0) = 2) := by
  refine ⟨if_neg h, if_neg h, ?_⟩
  rw [decodeFrame, confirmOf, decide_eq_true (Nat.one_le_iff_ne_zero.mpr h), Bool.true_and]

/-- Settles O15: the six results, each computed from the present lanes. -/
theorem fdecAnswersFromThePresentLanes : Obligations.FdecAnswersFromThePresentLanes := by
  intro s legal
  obtain ⟨t, answer, frame, decoded⟩ := fdec_answers legal
  have knib : t.resp.knib = (decodeFrame s.req.bytes).knib := congrArg Decoded.knib decoded
  have kclass : t.resp.kclass = (decodeFrame s.req.bytes).kclass := congrArg Decoded.kclass decoded
  have confirm : t.resp.confirm = (decodeFrame s.req.bytes).confirm :=
    congrArg Decoded.confirm decoded
  have rindex : t.resp.rindex = indexOf s.req.bytes := congrArg Decoded.rindex decoded
  have rvalue : t.resp.rvalue = valueOf s.req.bytes := congrArg Decoded.rvalue decoded
  have rcv : t.resp.rcv = receiverOf s.req.bytes := congrArg Decoded.rcv decoded
  refine ⟨t, answer, frame, fun empty => ?_, fun nonempty => ?_, ?_, ?_, ?_⟩
  · rw [knib, kclass, confirm]
    exact decodeFrame_kind_of_empty ((bytes_length legal).trans empty)
  · have lane0 : byteAt s.req.bytes 0 = s.req.B[0] := byteAt_bytes (by omega) legal
    obtain ⟨nibble, cls, conf⟩ :=
      decodeFrame_kind_of_byte (p := s.req.bytes) (by rw [bytes_length legal]; exact nonempty)
    rw [lane0] at nibble cls conf
    rw [knib, kclass, confirm, nibble, cls, conf]
    exact ⟨⟨_, rfl, (and_0x0F_toNat _).symm, classOf_of_toNat _⟩,
      decide_eq_true_iff.trans (lowNibble_eq_two_iff _)⟩
  · rw [rindex]; exact indexOf_bytes_toNat legal
  · rw [rvalue]; exact valueOf_bytes_toNat legal
  · rw [rcv]; exact receiverOf_bytes_toNat legal

/-! ### Built frames (R96 to R99) -/

/-- FENC.RD answers the frame of R96 on every operand. -/
theorem fencRd_answers (s : State) :
    ∃ t, exec .fencRd s = .next t ∧ OnlyPorts s t ∧
      (⟨t.resp.canId, t.resp.O, t.resp.olen⟩ : BuiltFrame) =
        buildFrame s.req.sender s.req.id16 s.req.index 0 :=
  ⟨_, exec_fencRd s, answered_onlyPorts _ s, rfl⟩

/-- FENC.WR answers the frame of R97 on every operand. -/
theorem fencWr_answers (s : State) :
    ∃ t, exec .fencWr s = .next t ∧ OnlyPorts s t ∧
      (⟨t.resp.canId, t.resp.O, t.resp.olen⟩ : BuiltFrame) =
        buildFrame s.req.sender s.req.id16 s.req.index s.req.raw :=
  ⟨_, exec_fencWr s, answered_onlyPorts _ s, rfl⟩

/-- What the ports of a built frame hold. -/
theorem ports_of_buildFrame {r : Response} {c : CanId} {id ix v : Word16}
    (h : (⟨r.canId, r.O, r.olen⟩ : BuiltFrame) = buildFrame c id ix v) :
    r.canId = c ∧ r.olen = 7 ∧
      r.O.toList = [hi8 id, lo8 id, marker, hi8 ix, lo8 ix, hi8 v, lo8 v, 0] := by
  refine ⟨congrArg BuiltFrame.canId h, congrArg BuiltFrame.olen h, ?_⟩
  rw [← buildFrame_lanes c id ix v]
  exact congrArg (fun f => f.O.toList) h

/-- Settles O18. -/
theorem fencRdBuildsAReadRequest : Obligations.FencRdBuildsAReadRequest := by
  intro s
  obtain ⟨t, answer, frame, built⟩ := fencRd_answers s
  obtain ⟨canId, olen, lanes⟩ := ports_of_buildFrame built
  refine ⟨t, answer, frame, canId, olen, ?_⟩
  rw [shiftRight_setWidth_eq_hi8 s.req.id16, shiftRight_setWidth_eq_hi8 s.req.index,
    setWidth_eq_lo8 s.req.id16, setWidth_eq_lo8 s.req.index]
  exact lanes

/-- Settles O19. -/
theorem fencWrBuildsAWriteRequest : Obligations.FencWrBuildsAWriteRequest := by
  intro s
  obtain ⟨t, answer, frame, built⟩ := fencWr_answers s
  obtain ⟨canId, olen, lanes⟩ := ports_of_buildFrame built
  refine ⟨t, answer, frame, canId, olen, ?_⟩
  rw [shiftRight_setWidth_eq_hi8 s.req.id16, shiftRight_setWidth_eq_hi8 s.req.index,
    shiftRight_setWidth_eq_hi8 s.req.raw, setWidth_eq_lo8 s.req.id16, setWidth_eq_lo8 s.req.index,
    setWidth_eq_lo8 s.req.raw]
  exact lanes

/-- Everything FDEC gives of the extended form of full length (R91 to R94, R113). -/
theorem decodeFrame_extendedBytes (id ix v : Word16) :
    decodeFrame (extendedBytes id ix v) =
      ⟨some (lowNibble (hi8 id)), classOf (lowNibble (hi8 id)), decide (lowNibble (hi8 id) = 2), ix, v,
        receiverOf [hi8 id, lo8 id]⟩ := by
  have index : indexOf (extendedBytes id ix v) = ix := be16_hi8_lo8 ix
  have value : valueOf (extendedBytes id ix v) = v := be16_hi8_lo8 v
  rw [decodeFrame, index, value]
  rfl

/-- The receiver of two bytes or more reads these two (R113). -/
theorem receiverOf_cons_cons_toNat (b c : Byte) (more : List Byte) :
    (receiverOf (b :: c :: more)).toNat =
      if c = 0x79 then 0xFFFF else ((b.toNat &&& 0xF0) <<< 3) + (c.toNat &&& 0x7F) := by
  have long : ¬ (b :: c :: more).length < 2 := by simp
  rw [receiverOf, if_neg long]
  change (if c = passiveMarker then noReceiver else _).toNat = _
  rw [passiveMarker]
  by_cases passive : c = 0x79
  · rw [if_pos passive, if_pos passive]; rfl
  · rw [if_neg passive, if_neg passive]; exact receiverFormula_toNat b c

/-- The receiver without masks: four bits of the first byte over seven of the second (R113). -/
theorem receiverOf_cons_cons_fields (b c : Byte) (more : List Byte) :
    (receiverOf (b :: c :: more)).toNat =
      if c = 0x79 then 0xFFFF else b.toNat / 16 * 128 + c.toNat % 128 := by
  have below : b.toNat < 256 := b.isLt
  rw [receiverOf_cons_cons_toNat, and_0xF0, and_0x7F, Nat.shiftLeft_eq]
  congr 1
  omega

/-- The lanes of a built frame, presented, are the extended form of full length. -/
theorem bytes_of_built {r : Request} {t : Response} {c : CanId} {id ix v : Word16}
    (built : (⟨t.canId, t.O, t.olen⟩ : BuiltFrame) = buildFrame c id ix v)
    (lanes : r.B = t.O) (len : r.len = t.olen) :
    r.len.toNat ≤ 8 ∧ r.bytes = extendedBytes id ix v := by
  obtain ⟨-, olen, all⟩ := ports_of_buildFrame built
  rw [Request.bytes, lanes, len, olen, all]
  exact ⟨by decide, rfl⟩

/-- FDEC of a presented built frame gives the fields of that frame (R99). -/
theorem fdec_of_built {s : State} {t : Response} {c : CanId} {id ix v : Word16}
    (built : (⟨t.canId, t.O, t.olen⟩ : BuiltFrame) = buildFrame c id ix v)
    (lanes : s.req.B = t.O) (len : s.req.len = t.olen) :
    ∃ u, exec .fdec s = .next u ∧ OnlyPorts s u ∧ u.resp.knib = some (lowNibble (hi8 id)) ∧
      u.resp.rindex = ix ∧ u.resp.rvalue = v ∧ u.resp.rcv = receiverOf [hi8 id, lo8 id] := by
  obtain ⟨legal, bytes⟩ := bytes_of_built built lanes len
  obtain ⟨u, answer, frame, decoded⟩ := fdec_answers legal
  rw [bytes, decodeFrame_extendedBytes] at decoded
  exact ⟨u, answer, frame, congrArg Decoded.knib decoded, congrArg Decoded.rindex decoded,
    congrArg Decoded.rvalue decoded, congrArg Decoded.rcv decoded⟩

/-- The low nibble of the first id byte is bits 11:8 of the id. -/
theorem lowNibble_hi8 (id : Word16) : lowNibble (hi8 id) = id.extractLsb' 8 4 := by
  apply BitVec.eq_of_toNat_eq
  rw [lowNibble_toNat, hi8_toNat, BitVec.extractLsb'_toNat, Nat.shiftRight_eq_div_pow]

/-- The receiver of the two bytes of an id, in terms of the id. -/
theorem receiverOf_id_toNat (id : Word16) :
    (receiverOf [hi8 id, lo8 id]).toNat = if id.toNat % 256 = 0x79 then 0xFFFF
      else ((id.toNat / 256 &&& 0xF0) <<< 3) + (id.toNat &&& 0x7F) := by
  have passive : lo8 id = 0x79 ↔ id.toNat % 256 = 0x79 := by
    rw [← BitVec.toNat_inj, lo8_toNat]; rfl
  have low : id.toNat % 256 &&& 0x7F = id.toNat &&& 0x7F := by rw [and_0x7F, and_0x7F]; omega
  simp only [receiverOf_cons_cons_toNat, passive, hi8_toNat, lo8_toNat, low]

/-- Settles O20: both operations build the same frame, up to its value bytes. -/
theorem builtFramesDecodeBack : Obligations.BuiltFramesDecodeBack := by
  intro i s t s' which answer lanes len
  have built : (⟨t.resp.canId, t.resp.O, t.resp.olen⟩ : BuiltFrame) =
      buildFrame s.req.sender s.req.id16 s.req.index (if i = .fencWr then s.req.raw else 0) := by
    rcases which with rfl | rfl <;> cases answer <;> rfl
  obtain ⟨u, decodes, frame, knib, rindex, rvalue, rcv⟩ := fdec_of_built built lanes len
  refine ⟨u, decodes, frame, ?_, rindex, rvalue, ?_⟩
  · rw [knib, lowNibble_hi8]
  · rw [rcv, receiverOf_id_toNat]

/-! ### Received layouts (R61, R62) -/

/-- The receiver of the first two bytes of a received layout. -/
theorem receiverOf_layout_toNat (r k : Nibble) (l : Byte) (more : List Byte) :
    (receiverOf ((r ++ k) :: l :: more)).toNat =
      if l = 0x79 then 0xFFFF else r.toNat * 128 + l.toNat % 128 := by
  have high : (r ++ k : Byte).toNat / 16 = r.toNat := by
    have below : k.toNat < 16 := k.isLt
    have append : (r ++ k : Byte).toNat = r.toNat * 2 ^ 4 + k.toNat := append_toNat r k
    omega
  rw [receiverOf_cons_cons_fields, high]

theorem classOf_eq_confirm_iff (k : Nibble) : classOf k = .confirm ↔ k = 2 := by
  revert k; decide

/-- Settles O40: FRAME.EXT is FDEC of the extended form of full length. -/
theorem extendedLayoutDecodesToItsFields : Obligations.ExtendedLayoutDecodesToItsFields := by
  intro s r k l ix v
  have decoded : decodeFrame (frameExtBytes r k l ix v) =
      ⟨some k, classOf k, decide (k = 2), ix, v, receiverOf [r ++ k, l]⟩ := by
    rw [frameExtBytes, decodeFrame_extendedBytes, hi8_be16, lo8_be16, lowNibble_append]
  have answer := execFrameExt_eq r k l ix v s
  rw [decoded] at answer
  exact ⟨_, answer, answered_onlyPorts _ s, rfl, decide_eq_true_iff, classOf_eq_confirm_iff k, rfl,
    rfl, receiverOf_layout_toNat r k l []⟩

/-- The index of a short form (R92). -/
theorem indexOf_short {ix : Byte} {rest : List Byte} (unmarked : ix ≠ 0xFA) (short : rest.length ≤ 4)
    (b l : Byte) : (indexOf (b :: l :: ix :: rest)).toNat = ix.toNat := by
  have inside : ¬ ((b :: l :: ix :: rest).length < 3 ∨ 7 < (b :: l :: ix :: rest).length) := by
    simp only [List.length_cons]; omega
  have third : byteAt (b :: l :: ix :: rest) 2 ≠ marker := unmarked
  rw [indexOf, if_neg inside, if_neg third]
  exact BitVec.toNat_setWidth_of_le (by decide)

/-- A short form without two bytes after its index has no value (R93). -/
theorem valueOf_short_of_lt {rest : List Byte} (few : rest.length < 2) (b l ix : Byte) :
    valueOf (b :: l :: ix :: rest) = noValue := by
  have outside : (b :: l :: ix :: rest).length < 5 ∨ 7 < (b :: l :: ix :: rest).length := by
    simp only [List.length_cons]; omega
  rw [valueOf, if_pos outside]

/-- The value of a short form is the two bytes after its index (R93). -/
theorem valueOf_short {ix : Byte} {more : List Byte} (unmarked : ix ≠ 0xFA) (short : more.length ≤ 2)
    (b l hi lo : Byte) : valueOf (b :: l :: ix :: hi :: lo :: more) = be16 hi lo := by
  have inside : ¬ ((b :: l :: ix :: hi :: lo :: more).length < 5 ∨
      7 < (b :: l :: ix :: hi :: lo :: more).length) := by
    simp only [List.length_cons]; omega
  have third : byteAt (b :: l :: ix :: hi :: lo :: more) 2 ≠ marker := unmarked
  rw [valueOf, if_neg inside, if_neg third]
  rfl

/-- Settles O41: FRAME.SHORT is FDEC of the short form. -/
theorem shortLayoutDecodesToItsFields : Obligations.ShortLayoutDecodesToItsFields := by
  intro s r k l ix rest unmarked short
  have kind := decodeFrame_kind_of_byte (p := frameShortBytes r k l ix rest) (by simp [frameShortBytes])
  have first : lowNibble (byteAt (frameShortBytes r k l ix rest) 0) = k := lowNibble_append r k
  obtain ⟨knib, -, confirm⟩ := kind
  rw [first] at knib confirm
  refine ⟨_, execFrameShort_of_le (by omega) r k l ix s, answered_onlyPorts _ s, knib, ?_,
    indexOf_short unmarked short _ l, fun few => valueOf_short_of_lt few _ l ix, ?_,
    receiverOf_layout_toNat r k l _⟩
  · exact (Eq.congr_left confirm).trans decide_eq_true_iff
  · rintro hi lo more rfl
    rw [← be16_toNat]
    have few : more.length ≤ 2 := by simp only [List.length_cons] at short; omega
    exact congrArg BitVec.toNat (valueOf_short unmarked few _ l hi lo)

/-! ### Built layouts and identifiers (R66, R69) -/

/-- FRAME.RD answers the frame of FENC.RD for the read id of the address. -/
theorem frameRd_answers (s : State) (a : Addr) (ix : Word16) :
    ∃ t, exec (.frameRd a ix) s = .next t ∧ OnlyPorts s t ∧
      (⟨t.resp.canId, t.resp.O, t.resp.olen⟩ : BuiltFrame) =
        buildFrame s.req.sender (idLayout a .read) ix 0 := by
  refine ⟨_, exec_frameRd s a ix, answered_onlyPorts _ s, ?_⟩
  rw [← readId_eq_idLayout]
  rfl

/-- FRAME.WR answers the frame of FENC.WR for the write id of the address. -/
theorem frameWr_answers (s : State) (a : Addr) (ix v : Word16) :
    ∃ t, exec (.frameWr a ix v) s = .next t ∧ OnlyPorts s t ∧
      (⟨t.resp.canId, t.resp.O, t.resp.olen⟩ : BuiltFrame) =
        buildFrame s.req.sender (idLayout a .write) ix v := by
  refine ⟨_, exec_frameWr s a ix v, answered_onlyPorts _ s, ?_⟩
  rw [← writeId_eq_idLayout]
  rfl

/-- Settles O39: the first seven lanes are the printed layout. -/
theorem builtLayoutsMatchTheirPatterns : Obligations.BuiltLayoutsMatchTheirPatterns := by
  intro s a ix v
  constructor
  · obtain ⟨t, answer, frame, built⟩ := frameRd_answers s a ix
    obtain ⟨canId, olen, lanes⟩ := ports_of_buildFrame built
    exact ⟨t, answer, frame, canId, olen, by rw [lanes]; rfl⟩
  · obtain ⟨t, answer, frame, built⟩ := frameWr_answers s a ix v
    obtain ⟨canId, olen, lanes⟩ := ports_of_buildFrame built
    exact ⟨t, answer, frame, canId, olen, by rw [lanes]; rfl⟩

/-- Settles O42. -/
theorem identifiersHaveTheirLayout : Obligations.IdentifiersHaveTheirLayout := by
  intro s a x
  refine ⟨_, exec_id16 s a x, answered_onlyPorts _ s, ?_, idOf_toNat x a⟩
  exact congrArg Presented.identifier (idOf_eq_idLayout x a).symm

/-! ### Laws of the identifiers (R115 to R117) -/

/-- What an id operation answered. -/
theorem r16_of_idInstr {x : IdTag} {s t : State} (h : exec (idInstr x) s = .next t) :
    t.resp.r16 = idOf x s.req.addr := by
  rw [exec_idInstr, respondR16_eq] at h
  cases h
  rfl

/-- Settles O22: the layout of an identifier decodes to its address and its tag. -/
theorem idsNeverCollide : Obligations.IdsNeverCollide := by
  intro x y s₁ s₂ t₁ t₂ answer₁ answer₂ same
  rw [r16_of_idInstr answer₁, r16_of_idInstr answer₂, idOf_eq_idLayout, idOf_eq_idLayout] at same
  have decoded := decodeIdentifier_idLayout s₁.req.addr x
  rw [same, decodeIdentifier_idLayout, Except.ok.injEq, Instr.id16.injEq] at decoded
  exact ⟨decoded.2.symm, decoded.1.symm⟩

theorem and_0x7BF (n : Nat) : n &&& 0x7BF = n / 128 % 16 * 128 + n % 64 := by
  have high : (n &&& 0x7BF) / 64 = n / 64 / 2 % 16 * 2 := by
    rw [Nat.and_div_two_pow (n := 6)]; exact and_fieldMask (n / 64) 1 4
  have low : (n &&& 0x7BF) % 64 = n % 64 % 64 := by
    rw [Nat.and_mod_two_pow (n := 6)]; exact and_0x3F (n % 64)
  omega

/-- The receiver of an id's two bytes: bit 6 of the address is in neither field (R116). -/
theorem receiverOf_idOf (x : IdTag) (a : Addr) :
    receiverOf [hi8 (idOf x a), lo8 (idOf x a)] = (a &&& 0x7BF).setWidth 16 := by
  apply BitVec.eq_of_toNat_eq
  have below : a.toNat < 2048 := a.isLt
  have tag : x.bits.toNat < 4 := x.bits.isLt
  have addressed : ((a &&& 0x7BF).setWidth 16).toNat = a.toNat / 128 % 16 * 128 + a.toNat % 64 := by
    rw [BitVec.toNat_setWidth_of_le (by decide), BitVec.toNat_and]
    exact and_0x7BF a.toNat
  have high : (hi8 (idOf x a)).toNat = a.toNat / 64 * 8 + x.bits.toNat := by
    rw [hi8_toNat, idOf_toNat]; omega
  have low : (lo8 (idOf x a)).toNat = a.toNat % 64 := by rw [lo8_toNat, idOf_toNat]; omega
  have active : lo8 (idOf x a) ≠ 0x79 := by
    intro h
    have number : (lo8 (idOf x a)).toNat = 121 := congrArg BitVec.toNat h
    omega
  rw [receiverOf_cons_cons_fields, if_neg active, addressed, high, low]
  omega

/-- A payload of two bytes or more starts with its first two lanes. -/
theorem receiverOf_bytes {r : Request} (two : 2 ≤ r.len.toNat) (h : r.len.toNat ≤ 8) :
    receiverOf r.bytes = receiverOf [r.B[0], r.B[1]] := by
  have lane0 : byteAt r.bytes 0 = r.B[0] := byteAt_bytes (by omega) h
  have lane1 : byteAt r.bytes 1 = r.B[1] := byteAt_bytes (by omega) h
  have long : ¬ r.bytes.length < 2 := by rw [bytes_length h]; omega
  rw [receiverOf, if_neg long, lane0, lane1]
  rfl

/-- Settles O23. -/
theorem receiverOfAnIdLosesBitSix : Obligations.ReceiverOfAnIdLosesBitSix := by
  intro x s t s' answer first second two legal
  obtain ⟨u, decodes, frame, rcv⟩ := aRcv_answers legal
  rw [r16_of_idInstr answer, shiftRight_setWidth_eq_hi8] at first
  rw [r16_of_idInstr answer, setWidth_eq_lo8] at second
  refine ⟨u, decodes, frame, ?_⟩
  rw [rcv, receiverOf_bytes two legal, first, second, receiverOf_idOf]

/-- The kind nibble of an id (R117). -/
theorem lowNibble_idOf_toNat (x : IdTag) (a : Addr) :
    (lowNibble (hi8 (idOf x a))).toNat = a.toNat / 64 % 2 * 8 + x.bits.toNat := by
  have tag : x.bits.toNat < 4 := x.bits.isLt
  rw [lowNibble_toNat, hi8_toNat, idOf_toNat]
  omega

/-- Settles O24: with address bit 6 set the nibble is 8 or more, so neither 0, 1 nor 2. -/
theorem kindNibbleOfAnId : Obligations.KindNibbleOfAnId := by
  intro x s t s' answer first nonempty legal
  obtain ⟨u, decodes, frame, decoded⟩ := fdec_answers legal
  rw [r16_of_idInstr answer, shiftRight_setWidth_eq_hi8] at first
  have lane0 : byteAt s'.req.bytes 0 = s'.req.B[0] := byteAt_bytes (by omega) legal
  obtain ⟨knib, kclass, confirm⟩ :=
    decodeFrame_kind_of_byte (p := s'.req.bytes) (by rw [bytes_length legal]; omega)
  rw [lane0, first, ← decoded] at knib kclass confirm
  have number := lowNibble_idOf_toNat x s.req.addr
  refine ⟨u, _, decodes, frame, knib, number, fun bit6 => ⟨kclass.trans ?_, confirm.trans ?_⟩⟩
  · obtain ⟨-, -, -, other⟩ := classOf_of_toNat (lowNibble (hi8 (idOf x s.req.addr)))
    exact other (by omega)
  · apply decide_eq_false
    intro two
    rw [two] at number
    have eight : (2 : Nat) = 1 * 8 + x.bits.toNat := by rw [← bit6]; exact number
    omega

end Sys2Proof.Machine
end

section
/-! The instructions by families, and what every instruction and every step has in common: the results
that are named, the ports that are not, and the separation of the block from its environment. -/

namespace Sys2Proof.Machine

/-! ### Families of instructions (R75) -/

/-- The rows of R75 by what they share: an operation of each kind, an operation of each tag, the single
operations and the wire layouts. -/
inductive Family : Instr → Prop
  | fdec : Family .fdec
  | fencRd : Family .fencRd
  | fencWr : Family .fencWr
  | aRcv : Family .aRcv
  | id (x : IdTag) : Family (idInstr x)
  | vEnc (k : Kind) : Family (vEncOf k)
  | vDec (k : Kind) : Family (vDecOf k)
  | vComb {k : Kind} {i : Instr} (h : vCombOf k = some i) : Family i
  | frameExt (r k : Nibble) (l : Byte) (ix v : Word16) : Family (.frameExt r k l ix v)
  | frameShort (r k : Nibble) (l ix : Byte) (rest : List Byte) : Family (.frameShort r k l ix rest)
  | frameRd (a : Addr) (ix : Word16) : Family (.frameRd a ix)
  | frameWr (a : Addr) (ix v : Word16) : Family (.frameWr a ix v)
  | id16 (a : Addr) (x : IdTag) : Family (.id16 a x)

/-- An operation that a command word of `op` 8 or more encodes is one of its kind. -/
theorem family_of_encode {cmd : BitVec 9} {i : Instr} (word : encode i = .command cmd)
    (wf : i.WellFormed) (kinds : 8 ≤ (cmd.extractLsb' 5 4).toNat) : Family i := by
  have decoded : decode (encode i) = .ok i := decodeOfEncodeIsIdentity i wf
  simp only [word, decode, decodeCommand] at decoded
  split at decoded
  case h_8 => obtain ⟨k, -, ok⟩ := withKind_ok decoded; cases ok; exact .vEnc k
  case h_9 => obtain ⟨k, -, ok⟩ := withKind_ok decoded; cases ok; exact .vDec k
  case h_10 => obtain ⟨k, -, ok⟩ := withKind_ok decoded; exact .vComb (combine?_ok ok)
  case h_11 => cases decoded
  all_goals omega

/-- Every instruction belongs to a family. -/
theorem family (i : Instr) : Family i := by
  cases i with
  | fdec => exact .fdec
  | fencRd => exact .fencRd
  | fencWr => exact .fencWr
  | aRcv => exact .aRcv
  | aWid => exact .id .write
  | aRid => exact .id .read
  | aRsp => exact .id .response
  | frameExt r k l ix v => exact .frameExt r k l ix v
  | frameShort r k l ix rest => exact .frameShort r k l ix rest
  | frameRd a ix => exact .frameRd a ix
  | frameWr a ix v => exact .frameWr a ix v
  | id16 a x => exact .id16 a x
  | _ => exact family_of_encode rfl rfl (by decide)

theorem namedResults_idInstr (x : IdTag) : namedResults (idInstr x) = .r16 := by cases x <;> rfl

theorem namedResults_vEncOf (k : Kind) : namedResults (vEncOf k) = .r16 := by cases k <;> rfl

theorem namedResults_vDecOf (k : Kind) : namedResults (vDecOf k) = .reng := by cases k <;> rfl

theorem namedResults_of_vCombOf {k : Kind} {i : Instr} (h : vCombOf k = some i) :
    namedResults i = .reng := by
  cases k with
  | double | triple | invDouble | invTriple => cases h; rfl
  | _ => cases h

/-- V.COMB of a kind answers the combination of that kind (R170). -/
theorem exec_of_vCombOf {k : Kind} {i : Instr} (h : vCombOf k = some i) (s : State) :
    ∃ e, vComb k s.req.w0 s.req.w1 s.req.w2 = some e ∧ exec i s = respondEng e s := by
  cases k with
  | double | triple | invDouble | invTriple => cases h; exact ⟨_, rfl, rfl⟩
  | _ => cases h

/-! ### Refused payloads (R43) -/

theorem withPayload_next {s t : State} {f : List Byte → Result} (h : withPayload s f = .next t) :
    s.req.len.toNat ≤ 8 ∧ f s.req.bytes = .next t := by
  rcases Nat.lt_or_ge 8 s.req.len.toNat with long | legal
  · rw [withPayload_of_gt long] at h; cases h
  · rw [withPayload_of_le legal] at h; exact ⟨legal, h⟩

theorem withBytes_next {t : State} {p : List Byte} {f : List Byte → Result}
    (h : withBytes p f = .next t) : p.length ≤ 8 ∧ f p = .next t := by
  rcases Nat.lt_or_ge 8 p.length with long | legal
  · rw [withBytes_of_gt long] at h; cases h
  · rw [withBytes_of_le legal] at h; exact ⟨legal, h⟩

/-! ### The unnamed ports (R32) -/

/-- A response writes no port outside a group. -/
def WritesOnly (g : Results) (f : Response → Response) : Prop := ∀ a, (f a).agreeOutside g a

theorem writesOnly_decoded (d : Decoded) : WritesOnly .decoded fun r => { r with
    knib := d.knib, kclass := d.kclass, confirm := d.confirm,
    rindex := d.rindex, rvalue := d.rvalue, rcv := d.rcv } :=
  fun _ => by simp [Response.agreeOutside]

theorem writesOnly_frame (f : BuiltFrame) : WritesOnly .frame fun r => { r with
    canId := f.canId, O := f.O, olen := f.olen } :=
  fun _ => by simp [Response.agreeOutside]

theorem writesOnly_rcv (v : Word16) : WritesOnly .rcv fun r => { r with rcv := v } :=
  fun _ => by simp [Response.agreeOutside]

theorem writesOnly_r16 (v : Word16) : WritesOnly .r16 fun r => { r with r16 := v } :=
  fun _ => by simp [Response.agreeOutside]

theorem writesOnly_reng (e : Eng) : WritesOnly .reng fun r => { r with reng := e } :=
  fun _ => by simp [Response.agreeOutside]

/-- An answer of exec is a response that writes only the results the instruction names. -/
theorem exec_writesOnly {i : Instr} {s t : State} (h : exec i s = .next t) :
    ∃ f, t = s.answered f ∧ WritesOnly (namedResults i) f := by
  cases family i with
  | fdec =>
    rw [exec_fdec, execFdec] at h
    exact ⟨_, respond_next (withPayload_next h).2, writesOnly_decoded _⟩
  | fencRd => exact ⟨_, respond_next h, writesOnly_frame _⟩
  | fencWr => exact ⟨_, respond_next h, writesOnly_frame _⟩
  | aRcv =>
    rw [exec_aRcv, execARcv] at h
    exact ⟨_, respond_next (withPayload_next h).2, writesOnly_rcv _⟩
  | id x =>
    rw [exec_idInstr] at h
    exact ⟨_, respond_next h, by rw [namedResults_idInstr]; exact writesOnly_r16 _⟩
  | vEnc k =>
    rw [exec_vEncOf] at h
    exact ⟨_, respond_next h, by rw [namedResults_vEncOf]; exact writesOnly_r16 _⟩
  | vDec k =>
    rw [exec_vDecOf] at h
    exact ⟨_, respond_next h, by rw [namedResults_vDecOf]; exact writesOnly_reng _⟩
  | vComb hk =>
    obtain ⟨e, -, answer⟩ := exec_of_vCombOf hk s
    rw [answer] at h
    exact ⟨_, respond_next h, by rw [namedResults_of_vCombOf hk]; exact writesOnly_reng _⟩
  | frameExt r k l ix v =>
    rw [exec_frameExt, execFrameExt] at h
    exact ⟨_, respond_next (withBytes_next h).2, writesOnly_decoded _⟩
  | frameShort r k l ix rest =>
    rw [exec_frameShort, execFrameShort] at h
    exact ⟨_, respond_next (withBytes_next h).2, writesOnly_decoded _⟩
  | frameRd a ix => exact ⟨_, respond_next h, writesOnly_frame _⟩
  | frameWr a ix v => exact ⟨_, respond_next h, writesOnly_frame _⟩
  | id16 a x => exact ⟨_, respond_next h, writesOnly_r16 _⟩

/-- Settles O6. -/
theorem onlyTheNamedResultsAreSpecified : Obligations.OnlyTheNamedResultsAreSpecified := by
  intro i s t answer
  obtain ⟨f, rfl, outside⟩ := exec_writesOnly answer
  exact ⟨answered_onlyPorts f s, outside _⟩

/-! ### The named results (R20, R53) -/

/-- Whenever the first outcome is an answer, the second is one with the same results in a group. -/
def SameResults (g : Results) (a b : Result) : Prop :=
  ∀ t₁, a = .next t₁ → ∃ t₂, b = .next t₂ ∧ t₁.resp.agreeOn g t₂.resp

section
variable (s₁ s₂ : State)

theorem respondDecoded_same (d : Decoded) :
    SameResults .decoded (respondDecoded d s₁) (respondDecoded d s₂) := by
  intro t₁ h
  cases h
  exact ⟨_, rfl, rfl, rfl, rfl, rfl, rfl, rfl⟩

theorem respondFrame_same (f : BuiltFrame) :
    SameResults .frame (respondFrame f s₁) (respondFrame f s₂) := by
  intro t₁ h
  cases h
  exact ⟨_, rfl, rfl, rfl, rfl⟩

theorem respondRcv_same (v : Word16) : SameResults .rcv (respondRcv v s₁) (respondRcv v s₂) := by
  intro t₁ h
  cases h
  exact ⟨_, rfl, rfl⟩

theorem respondR16_same (v : Word16) : SameResults .r16 (respondR16 v s₁) (respondR16 v s₂) := by
  intro t₁ h
  cases h
  exact ⟨_, rfl, rfl⟩

theorem respondEng_same (e : Eng) : SameResults .reng (respondEng e s₁) (respondEng e s₂) := by
  intro t₁ h
  cases h
  exact ⟨_, rfl, rfl⟩

variable {s₁ s₂}

theorem withPayload_same {g : Results} {f₁ f₂ : List Byte → Result} (req : s₁.req = s₂.req)
    (h : ∀ p, SameResults g (f₁ p) (f₂ p)) :
    SameResults g (withPayload s₁ f₁) (withPayload s₂ f₂) := by
  intro t₁ answer
  obtain ⟨legal, answer⟩ := withPayload_next answer
  rw [withPayload_of_le (req ▸ legal), ← req]
  exact h _ t₁ answer

theorem withBytes_same {g : Results} {f₁ f₂ : List Byte → Result} (p : List Byte)
    (h : ∀ p, SameResults g (f₁ p) (f₂ p)) : SameResults g (withBytes p f₁) (withBytes p f₂) := by
  intro t₁ answer
  obtain ⟨legal, answer⟩ := withBytes_next answer
  rw [withBytes_of_le legal]
  exact h _ t₁ answer

/-- The named results of two equal requests are equal, for V.ENC where R123 specifies them. -/
theorem exec_same {i : Instr} (req : s₁.req = s₂.req)
    (specified : ∀ k, i = vEncOf k → vEnc k s₁.req.eng ≠ none) :
    SameResults (namedResults i) (exec i s₁) (exec i s₂) := by
  cases family i with
  | fdec => exact withPayload_same req fun p => respondDecoded_same s₁ s₂ _
  | fencRd => rw [exec_fencRd, exec_fencRd, execFencRd, execFencRd, req]; exact respondFrame_same _ _ _
  | fencWr => rw [exec_fencWr, exec_fencWr, execFencWr, execFencWr, req]; exact respondFrame_same _ _ _
  | aRcv => exact withPayload_same req fun p => respondRcv_same s₁ s₂ _
  | id x =>
    rw [exec_idInstr, exec_idInstr, req, namedResults_idInstr]
    exact respondR16_same _ _ _
  | vEnc k =>
    obtain ⟨v, encoded⟩ := Option.ne_none_iff_exists'.mp (specified k rfl)
    rw [exec_vEncOf, exec_vEncOf, ← req, encoded, namedResults_vEncOf]
    exact respondR16_same _ _ v
  | vDec k =>
    rw [exec_vDecOf, exec_vDecOf, req, namedResults_vDecOf]
    exact respondEng_same _ _ _
  | vComb hk =>
    obtain ⟨e₁, combined₁, answer₁⟩ := exec_of_vCombOf hk s₁
    obtain ⟨e₂, combined₂, answer₂⟩ := exec_of_vCombOf hk s₂
    obtain rfl : e₁ = e₂ := Option.some.inj (by rw [← combined₁, ← combined₂, req])
    rw [answer₁, answer₂, namedResults_of_vCombOf hk]
    exact respondEng_same _ _ _
  | frameExt r k l ix v =>
    rw [exec_frameExt, exec_frameExt, execFrameExt, execFrameExt]
    exact withBytes_same _ fun p => respondDecoded_same s₁ s₂ _
  | frameShort r k l ix rest => exact withBytes_same _ fun p => respondDecoded_same s₁ s₂ _
  | frameRd a ix =>
    rw [exec_frameRd, exec_frameRd, execFrameRd, execFrameRd, req]; exact respondFrame_same _ _ _
  | frameWr a ix v =>
    rw [exec_frameWr, exec_frameWr, execFrameWr, execFrameWr, req]; exact respondFrame_same _ _ _
  | id16 a x => exact respondR16_same _ _ _

end

/-- Settles O5. -/
theorem resultsDependOnTheRequestOnly : Obligations.ResultsDependOnTheRequestOnly :=
  fun _ _ _ t₁ req specified answer => exec_same req specified t₁ answer

/-! ### The functions of the environment's statements, and the pseudo-operations (R180 to R182) -/

/-- Settles O60. -/
theorem environmentUsesTheOperations : Obligations.EnvironmentUsesTheOperations := by
  refine ⟨fun s legal => ?_, fun s k => ⟨?_, ?_, fun i hk => ?_⟩⟩
  · obtain ⟨t, answer, -, decoded⟩ := fdec_answers legal
    exact ⟨t, answer, decoded.symm⟩
  · exact ⟨_, exec_vDecOf k s, rfl⟩
  · refine ⟨_, exec_vEncOf k s, fun v encoded => ?_⟩
    rw [encoded]; rfl
  · obtain ⟨e, combined, answer⟩ := exec_of_vCombOf hk s
    exact ⟨_, answer, combined⟩

/-- What FENC.RD answered. -/
theorem built_of_fencRd {s t : State} (h : exec .fencRd s = .next t) :
    (⟨t.resp.canId, t.resp.O, t.resp.olen⟩ : BuiltFrame) =
      encodeRead s.req.sender s.req.id16 s.req.index := by cases h; rfl

/-- What FENC.WR answered. -/
theorem built_of_fencWr {s t : State} (h : exec .fencWr s = .next t) :
    (⟨t.resp.canId, t.resp.O, t.resp.olen⟩ : BuiltFrame) =
      encodeWrite s.req.sender s.req.id16 s.req.index s.req.raw := by cases h; rfl

/-- What V.ENC.k answered. -/
theorem r16_of_vEncOf {k : Kind} {s t : State} (h : exec (vEncOf k) s = .next t) :
    t.resp.r16 = encodedOr s.draws (vEnc k s.req.eng) := by
  rw [exec_vEncOf] at h; cases h; rfl

/-- What V.DEC.k answered. -/
theorem reng_of_vDecOf {k : Kind} {s t : State} (h : exec (vDecOf k) s = .next t) :
    t.resp.reng = vDec k s.req.raw := by
  rw [exec_vDecOf] at h; cases h; rfl

/-- What FDEC answered. -/
theorem decoded_of_fdec {s t : State} (h : exec .fdec s = .next t) :
    t.resp.decoded = decodeFrame s.req.bytes := by
  rw [exec_fdec, execFdec] at h
  obtain ⟨-, answer⟩ := withPayload_next h
  cases answer
  rfl

/-- Settles O57: each chain, from its last operation back. -/
theorem compositesAreTheirExpansions : Obligations.CompositesAreTheirExpansions := by
  refine ⟨fun s t s' u rid fed fenc => ?_, fun k s t s' t' s'' u wid enc fedId fedRaw fenc => ?_,
    fun k s t s' u fdec fed dec => ?_⟩
  · have id : t.resp.r16 = readId s.req.addr := r16_of_idInstr (x := .read) rid
    rw [built_of_fencRd fenc, fed, id, buildRd]
  · have id : t.resp.r16 = writeId s.req.addr := r16_of_idInstr (x := .write) wid
    rw [built_of_fencWr fenc, fedId, fedRaw, id, r16_of_vEncOf enc, buildWr]
  · have decoded := decoded_of_fdec fdec
    rw [reng_of_vDecOf dec, fed, parse, ← decoded]
    rfl

/-- Settles O56. -/
theorem kindAttributesFollowTheTable : Obligations.KindAttributesFollowTheTable := by
  intro k
  cases k <;> decide

/-! ### The step, by the next input (R7, R219) -/

section
variable {s : State} {rest : List Input}

theorem step_receive {c : CanId} {x y : Bool} {p : List Byte}
    (h : s.inputs = .receive c x y p :: rest) (legal : p.length ≤ 8) :
    step s = .next ((s.awaiting rest).moved (s.env.receiveFrame c p s.draws)) := by
  rw [step, h]
  exact withBytes_of_le legal

theorem step_receive_of_gt {c : CanId} {x y : Bool} {p : List Byte}
    (h : s.inputs = .receive c x y p :: rest) (long : 8 < p.length) :
    step s = .refused (.payloadLength p.length) := by
  rw [step, h]
  exact withBytes_of_gt long

theorem step_tick {ok : Bool} (h : s.inputs = .tick ok :: rest) :
    step s = .next ((s.awaiting rest).moved (s.env.drain ok)) := by rw [step, h]; rfl

theorem step_timerFires {k : Nat} (h : s.inputs = .timerFires k :: rest) :
    step s = .next ((s.awaiting rest).moved (s.env.fireTimer k)) := by rw [step, h]; rfl

theorem step_timerCancelled {k : Nat} (h : s.inputs = .timerCancelled k :: rest) :
    step s = .next ((s.awaiting rest).moved (s.env.cancelTimer k)) := by rw [step, h]; rfl

theorem step_poll {r : WatcherRef} (h : s.inputs = .poll r :: rest) :
    step s = .next ((s.awaiting rest).moved (s.env.beginReadCycle r)) := by rw [step, h]; rfl

theorem step_control {k : Nat} {q : Rat} {ok : Bool} (h : s.inputs = .control k q ok :: rest) :
    step s = .next ((s.awaiting rest).moved (s.env.controlWatcher k q ok s.draws)) := by
  rw [step, h]; rfl

/-- An answered request is executed on the latched ports. -/
theorem step_request_next {r : Request} {t : State} (h : s.inputs = .request r :: rest)
    (answer : step s = .next t) : ∃ i, exec i ((s.awaiting rest).latched r) = .next t := by
  rw [step_request h, serve] at answer
  split at answer
  case h_1 i _ => exact ⟨i, answer⟩
  case h_2 => cases answer

/-- An event other than a request moves the environment, unless it delivers a payload that is too
long. -/
theorem step_event {i : Input} (h : s.inputs = i :: rest) (event : ∀ r, i ≠ .request r)
    (legal : ∀ c x y p, i = .receive c x y p → p.length ≤ 8) :
    ∃ e, step s = .next ((s.awaiting rest).moved e) := by
  cases i with
  | request r => exact absurd rfl (event r)
  | receive c x y p => exact ⟨_, step_receive h (legal c x y p rfl)⟩
  | tick ok => exact ⟨_, step_tick h⟩
  | timerFires k => exact ⟨_, step_timerFires h⟩
  | timerCancelled k => exact ⟨_, step_timerCancelled h⟩
  | poll r => exact ⟨_, step_poll h⟩
  | control k q ok => exact ⟨_, step_control h⟩

/-- An answered delivery is of a legal payload (R43). -/
theorem length_le_of_step_receive {c : CanId} {x y : Bool} {p : List Byte} {t : State}
    (h : s.inputs = .receive c x y p :: rest) (answer : step s = .next t) : p.length ≤ 8 := by
  by_contra long
  rw [step_receive_of_gt h (Nat.lt_of_not_le long)] at answer
  cases answer

end

/-- Settles O3. -/
theorem environmentEventsAreAnswered : Obligations.EnvironmentEventsAreAnswered := by
  intro s i rest next event legal
  obtain ⟨e, answer⟩ := step_event next event legal
  exact ⟨_, answer, rfl, rfl, rfl⟩

/-- Settles O4. -/
theorem payloadAboveEightIsRefused : Obligations.PayloadAboveEightIsRefused :=
  ⟨fun _ long => ⟨exec_fdec_of_gt long, exec_aRcv_of_gt long⟩,
    fun _ _ _ _ _ _ next long => step_receive_of_gt next long⟩

/-- Settles O7: a request is an answer of exec, any other input a move of the environment. -/
theorem blockAndEnvironmentAreSeparate : Obligations.BlockAndEnvironmentAreSeparate := by
  intro s t i rest next answer
  by_cases isRequest : ∃ r, i = .request r
  · obtain ⟨r, rfl⟩ := isRequest
    obtain ⟨j, executed⟩ := step_request_next next answer
    obtain ⟨req, env, inputs, draws⟩ := exec_onlyPorts executed
    refine ⟨inputs, draws, fun r' same => ?_, fun event => absurd rfl (event r)⟩
    cases same
    exact ⟨req, env⟩
  · have event : ∀ r, i ≠ .request r := fun r same => isRequest ⟨r, same⟩
    obtain ⟨e, moved⟩ := step_event next event fun c x y p same =>
      length_le_of_step_receive (next.trans (by rw [same])) answer
    rw [moved] at answer
    cases answer
    exact ⟨rfl, rfl, fun r same => absurd same (event r), fun _ => ⟨rfl, rfl⟩⟩

end Sys2Proof.Machine
end

section
/-! The encode half of the ValueCodec (spec/42_value_codec.md, R123 to R126) and the round trips (R130,
R183): the rounding helpers meet the relations of R13, an integer in range has its pattern, and decoding
that pattern gives the integer back. -/

namespace Sys2Proof.Machine

/-! ### Rounding to nearest (R13, D5) -/

/-- For a non-negative number the nearest integer, halves up, is the floor half a unit higher. -/
theorem floor_add_half_eq {x : Rat} {z : Int} (nonneg : 0 ≤ x) (h : NearestAway x z) :
    ⌊x + 1 / 2⌋ = z := by
  rw [Int.floor_eq_iff]
  rcases h with near | ⟨tie, away⟩
  · have := abs_lt.mp near
    constructor <;> linarith
  · rcases (abs_eq (by norm_num)).mp tie with below | above
    · have bound : |(z : Rat)| ≤ 1 / 2 := by
        have value : (z : Rat) = x - 1 / 2 := by linarith
        rw [abs_of_nonneg nonneg, value] at away
        rw [value]
        rcases lt_abs.mp away with h | h
        · linarith
        · rw [abs_le]; constructor <;> linarith
      have zero : z = 0 := by
        have : |z| < 1 := by
          have : (|z| : Rat) < 1 := by linarith
          exact_mod_cast this
        exact Int.abs_lt_one_iff.mp this
      subst zero
      rw [Int.cast_zero, abs_zero] at away
      exact absurd away (not_lt.mpr (abs_nonneg x))
    · constructor <;> linarith

/-- The relation of R13 is symmetric about zero. -/
theorem NearestAway.neg {x : Rat} {z : Int} (h : NearestAway x z) : NearestAway (-x) (-z) := by
  have distance : |(-x) - ((-z : Int) : Rat)| = |x - z| := by
    rw [Int.cast_neg, ← abs_neg (x - z)]
    congr 1
    ring
  rw [NearestAway, distance, Int.cast_neg, abs_neg, abs_neg]
  exact h

/-- `round_hafz` computes the relation of R13. -/
theorem roundHafz_eq {x : Rat} {z : Int} (h : NearestAway x z) : roundHafz x = z := by
  unfold roundHafz
  split
  case isTrue nonneg => exact floor_add_half_eq nonneg h
  case isFalse negative =>
    have mirrored : ⌊-x + 1 / 2⌋ = -z := floor_add_half_eq (by linarith) h.neg
    exact neg_eq_iff_eq_neg.mpr mirrored

/-- Rounding moves a number by at most half a unit. -/
theorem abs_sub_roundHafz_le (x : Rat) : |x - roundHafz x| ≤ 1 / 2 := by
  unfold roundHafz
  split
  case isTrue =>
    have low : ((x + 1 / 2).floor : Rat) ≤ x + 1 / 2 := Int.floor_le (x + 1 / 2)
    have high : x + 1 / 2 < (x + 1 / 2).floor + 1 := Int.lt_floor_add_one (x + 1 / 2)
    rw [abs_le]
    constructor <;> linarith
  case isFalse =>
    have low : ((-x + 1 / 2).floor : Rat) ≤ -x + 1 / 2 := Int.floor_le (-x + 1 / 2)
    have high : -x + 1 / 2 < (-x + 1 / 2).floor + 1 := Int.lt_floor_add_one (-x + 1 / 2)
    rw [abs_le, Int.cast_neg]
    constructor <;> linarith

theorem roundHafz_intCast (z : Int) : roundHafz (z : Rat) = z :=
  roundHafz_eq (.inl (by rw [sub_self, abs_zero]; norm_num))

/-! ### Truncation (R13, D6) -/

/-- `trunc` computes the relation of R13. -/
theorem truncToZero_eq {x : Rat} {z : Int} (h : TruncatesTo x z) : truncToZero x = z := by
  obtain ⟨ofNonneg, ofNeg⟩ := h
  unfold truncToZero
  split
  case isTrue nonneg => exact Int.floor_eq_iff.mpr (ofNonneg nonneg)
  case isFalse negative =>
    obtain ⟨low, high⟩ := ofNeg (not_le.mp negative)
    have mirrored : ⌊-x⌋ = -z := by
      rw [Int.floor_eq_iff, Int.cast_neg]
      constructor <;> linarith
    exact neg_eq_iff_eq_neg.mpr mirrored

theorem truncatesTo_truncToZero (x : Rat) : TruncatesTo x (truncToZero x) := by
  unfold truncToZero
  constructor
  · intro nonneg
    rw [if_pos nonneg]
    exact ⟨Int.floor_le x, Int.lt_floor_add_one x⟩
  · intro negative
    have low : ((-x).floor : Rat) ≤ -x := Int.floor_le (-x)
    have high : -x < (-x).floor + 1 := Int.lt_floor_add_one (-x)
    rw [if_neg (not_le.mpr negative), Int.cast_neg]
    constructor <;> linarith

theorem truncToZero_natCast (n : Nat) : truncToZero ((n : Int) : Rat) = n :=
  truncToZero_eq ⟨fun _ => ⟨le_rfl, lt_add_one _⟩,
    fun negative => absurd negative (not_lt.mpr (by exact_mod_cast n.zero_le))⟩

/-! ### Dispatch (R120) -/

/-- The three kinds with decimals, by their scale (R29). -/
theorem mem_fixedPoint_iff {k : Kind} {n : Nat} :
    (k, n) ∈ [(Kind.dec1, 1), (Kind.dec2, 2), (Kind.dec3, 3)] ↔ scale k = n ∧ scale k ≠ 0 := by
  cases k with
  | dec1 | dec2 | dec3 => simp [scale, eq_comm]
  | _ => simp [scale]

/-- A kind with decimals encodes by the fixed-point rule of its scale. -/
theorem vEnc_of_scale_ne_zero {k : Kind} (decimals : scale k ≠ 0) (e : Eng) :
    vEnc k e = encFixed (scale k) e := by
  cases k with
  | dec1 | dec2 | dec3 => rfl
  | _ => exact absurd rfl decimals

/-- A kind without decimals encodes by the default rule, but for LE16. -/
theorem vEnc_of_scale_eq_zero {k : Kind} (integral : scale k = 0) (unswapped : k ≠ .le16) (e : Eng) :
    vEnc k e = encRaw e := by
  cases k with
  | dec1 | dec2 | dec3 => cases integral
  | le16 => exact absurd rfl unswapped
  | _ => rfl

/-- A V.ENC operation answers on every operand, with the encoded word where R123 specifies one. -/
theorem vEncOf_answers (k : Kind) (s : State) :
    ∃ t, exec (vEncOf k) s = .next t ∧ OnlyPorts s t ∧
      ∀ v, vEnc k s.req.eng = some v → t.resp.r16 = v := by
  refine ⟨_, exec_vEncOf k s, answered_onlyPorts _ s, fun v encoded => ?_⟩
  rw [encoded]
  rfl

/-! ### Patterns (R11, R123, D7) -/

theorem patternIn_of_mem {lo hi z : Int} (low : lo ≤ z) (high : z ≤ hi) :
    patternIn lo hi z = some (BitVec.ofInt 16 z) := by
  rw [← u16OfInt_eq]
  exact if_pos ⟨low, high⟩

theorem powTen_eq (n : Nat) : powTen n = 10 ^ n := by rw [powTen, Nat.cast_pow, Nat.cast_ofNat]

/-- R124 on a number whose rounded integer is in range. -/
theorem encFixed_eq {n : Nat} {q : Rat} {z : Int} (rounded : roundHafz (q * 10 ^ n) = z)
    (low : -32768 ≤ z) (high : z ≤ 32767) : encFixed n (.fin q) = some (BitVec.ofInt 16 z) := by
  have rule : encFixed n (.fin q) = patternIn (-32768) 32767 (roundHafz (q * powTen n)) := rfl
  rw [rule, powTen_eq, rounded, patternIn_of_mem low high]

/-- R125 on a number whose integer part is in range. -/
theorem encRaw_eq {q : Rat} {z : Int} (truncated : truncToZero q = z) (low : -32768 ≤ z)
    (high : z ≤ 65535) : encRaw (.fin q) = some (BitVec.ofInt 16 z) := by
  have rule : encRaw (.fin q) = patternIn (-32768) 65535 (truncToZero q) := rfl
  rw [rule, truncated, patternIn_of_mem low high]

/-- R126 on a number whose integer part is in range. -/
theorem encSwap_eq {q : Rat} {z : Int} (truncated : truncToZero q = z) (low : -32768 ≤ z)
    (high : z ≤ 65535) : encSwap (.fin q) = some (swap16 (BitVec.ofInt 16 z)) := by
  rw [encSwap, encRaw_eq truncated low high, Option.map_some]

/-- The bytes of a word change places (R11). -/
theorem hi8_swap16 (v : Word16) : hi8 (swap16 v) = lo8 v := by rw [swap16, hi8_be16]

theorem lo8_swap16 (v : Word16) : lo8 (swap16 v) = hi8 v := by rw [swap16, lo8_be16]

/-! ### V.ENC -/

/-- Settles O25. -/
theorem fixedPointEncodeIsNearest : Obligations.FixedPointEncodeIsNearest := by
  intro s k n kind
  obtain ⟨rfl, decimals⟩ := mem_fixedPoint_iff.mp kind
  obtain ⟨t, answer, frame, encoded⟩ := vEncOf_answers k s
  refine ⟨fun q z operand nearest low high => ⟨t, answer, frame, encoded _ ?_⟩, t, answer, frame⟩
  rw [operand, vEnc_of_scale_ne_zero decimals, encFixed_eq (roundHafz_eq nearest) low high]

/-- Settles O26: the listed kinds have no decimals and are not LE16. -/
theorem rawEncodeTruncates : Obligations.RawEncodeTruncates := by
  intro s k kind
  obtain ⟨integral, unswapped⟩ : scale k = 0 ∧ k ≠ .le16 := by revert k; decide
  obtain ⟨t, answer, frame, encoded⟩ := vEncOf_answers k s
  refine ⟨fun q z operand truncates low high => ⟨t, answer, frame, encoded _ ?_⟩, t, answer, frame⟩
  rw [operand, vEnc_of_scale_eq_zero integral unswapped, encRaw_eq (truncToZero_eq truncates) low high]

/-- Settles O27. -/
theorem swappedEncodeSwapsBytes : Obligations.SwappedEncodeSwapsBytes := by
  intro s
  obtain ⟨t, answer, frame, encoded⟩ := vEncOf_answers .le16 s
  refine ⟨fun q z operand truncates low high => ⟨t, answer, frame, ?_⟩, t, answer, frame⟩
  have swapped : t.resp.r16 = swap16 (BitVec.ofInt 16 z) := by
    apply encoded
    rw [operand]
    exact encSwap_eq (truncToZero_eq truncates) low high
  rw [swapped]
  exact ⟨hi8_swap16 _, lo8_swap16 _⟩

/-! ### V.DEC -/

/-- Settles O30: the small kinds have no decimals and are not LE16. -/
theorem smallKindDecodeIsTheDefaultRule : Obligations.SmallKindDecodeIsTheDefaultRule := by
  intro s k kind
  obtain ⟨integral, unswapped⟩ : scale k = 0 ∧ k ≠ .le16 := by revert k; decide
  obtain ⟨t, answer, frame, result⟩ := vDecOf_answers k s
  refine ⟨t, answer, frame, ?_⟩
  rw [result, vDec_of_scale_eq_zero integral unswapped]
  rcases decRaw_cases s.req.raw with ⟨missing, nan⟩ | ⟨present, number⟩
  · exact ⟨fun _ => nan, fun present => absurd missing present⟩
  · exact ⟨fun missing => absurd missing present, fun _ => number⟩

/-- Every kind decodes by one of the three rules (R120). -/
theorem vDec_rule (k : Kind) (raw : Word16) :
    vDec k raw = decFixed (scale k) raw ∨ vDec k raw = decRaw raw ∨ vDec k raw = decSwap raw := by
  by_cases integral : scale k = 0
  · by_cases swapped : k = .le16
    · exact .inr (.inr (by rw [swapped]; rfl))
    · exact .inr (.inl (vDec_of_scale_eq_zero integral swapped raw))
  · exact .inl (vDec_of_scale_ne_zero integral raw)

/-- The sentinel, and it alone, decodes to NaN (R122). -/
theorem vDec_eq_nan_iff (k : Kind) (raw : Word16) : vDec k raw = .nan ↔ raw = noValue := by
  rcases vDec_rule k raw with rule | rule | rule <;> rw [rule]
  · rcases decFixed_cases (scale k) raw with ⟨missing, nan⟩ | ⟨present, number⟩
    · exact iff_of_true nan missing
    · exact iff_of_false (by rw [number]; exact Eng.noConfusion) present
  · rcases decRaw_cases raw with ⟨missing, nan⟩ | ⟨present, number⟩
    · exact iff_of_true nan missing
    · exact iff_of_false (by rw [number]; exact Eng.noConfusion) present
  · rcases decSwap_cases raw with ⟨missing, nan⟩ | ⟨present, number⟩
    · exact iff_of_true nan missing
    · exact iff_of_false (by rw [number]; exact Eng.noConfusion) present

/-- Settles O32. -/
theorem missingValueIsExactlyNaN : Obligations.MissingValueIsExactlyNaN := by
  intro s k
  obtain ⟨t, answer, frame, result⟩ := vDecOf_answers k s
  exact ⟨t, answer, frame, by rw [result]; exact vDec_eq_nan_iff k s.req.raw⟩

/-! ### Encode then decode (R130) -/

theorem decFixed_of_ne {n : Nat} {raw : Word16} (present : raw ≠ noValue) :
    decFixed n raw = .fin ((raw.toInt : Rat) / 10 ^ n) := by
  rw [decFixed, if_neg present, s16_eq_toInt, powTen_eq]

theorem decRaw_of_ne {raw : Word16} (present : raw ≠ noValue) :
    decRaw raw = .fin ((raw.toNat : Int) : Rat) := if_neg present

/-- The signed reading of the pattern of a signed 16-bit integer. -/
theorem toInt_ofInt_of_mem {z : Int} (low : -32768 ≤ z) (high : z ≤ 32767) :
    (BitVec.ofInt 16 z).toInt = z := by
  rw [BitVec.toInt_ofInt]
  exact Int.bmod_eq_of_le (by omega) (by omega)

/-- The unsigned reading of a pattern is the residue (R11). -/
theorem toNat_ofInt_eq (z : Int) : ((BitVec.ofInt 16 z).toNat : Int) = z % 65536 := by
  rw [BitVec.toNat_ofInt]
  omega

/-- A fixed-point number whose word is not the sentinel comes back within half a unit. -/
theorem fixedPoint_roundTrip {k : Kind} {q : Rat} {v : Word16} (decimals : scale k ≠ 0)
    (low : -(32768 + 1 / 2) < q * 10 ^ scale k) (high : q * 10 ^ scale k < 32767 + 1 / 2)
    (encoded : ∀ w, vEnc k (.fin q) = some w → v = w) :
    v = BitVec.ofInt 16 (roundHafz (q * 10 ^ scale k)) ∧
      (v ≠ noValue → ∃ r, vDec k v = .fin r ∧ |r - q| * 10 ^ scale k ≤ 1 / 2) := by
  generalize hz : roundHafz (q * 10 ^ scale k) = z
  have near : |q * 10 ^ scale k - z| ≤ 1 / 2 := hz ▸ abs_sub_roundHafz_le (q * 10 ^ scale k)
  obtain ⟨nearLow, nearHigh⟩ := abs_le.mp near
  have zLow : -32768 ≤ z := by
    have : (-32769 : Rat) < z := by linarith
    have : (-32769 : Int) < z := by exact_mod_cast this
    omega
  have zHigh : z ≤ 32767 := by
    have : (z : Rat) < 32768 := by linarith
    have : z < 32768 := by exact_mod_cast this
    omega
  have word : v = BitVec.ofInt 16 z := by
    apply encoded
    rw [vEnc_of_scale_ne_zero decimals, encFixed_eq hz zLow zHigh]
  refine ⟨word, fun present => ⟨(z : Rat) / 10 ^ scale k, ?_, ?_⟩⟩
  · rw [vDec_of_scale_ne_zero decimals, decFixed_of_ne present, word, toInt_ofInt_of_mem zLow zHigh]
  · have unit : (0 : Rat) < 10 ^ scale k := by positivity
    calc |(z : Rat) / 10 ^ scale k - q| * 10 ^ scale k
        = |((z : Rat) / 10 ^ scale k - q) * 10 ^ scale k| := by rw [abs_mul, abs_of_pos unit]
      _ = |q * 10 ^ scale k - z| := by
          rw [sub_mul, div_mul_cancel₀ _ unit.ne', abs_sub_comm]
      _ ≤ 1 / 2 := near

/-- A number below 65536 in a truncating kind, whose word is not the sentinel, comes back as the residue
of its integer part. -/
theorem truncating_roundTrip {k : Kind} {q : Rat} {v : Word16} (integral : scale k = 0)
    (low : -32769 < q) (high : q < 65536) (encoded : ∀ w, vEnc k (.fin q) = some w → v = w) :
    v = (if k = .le16 then swap16 (BitVec.ofInt 16 (truncToZero q))
      else BitVec.ofInt 16 (truncToZero q)) ∧
    (v ≠ noValue → vDec k v = .fin ((truncToZero q % 65536 : Int) : Rat)) := by
  obtain ⟨ofNonneg, ofNeg⟩ := truncatesTo_truncToZero q
  generalize hz : truncToZero q = z at *
  have bounds : -32768 ≤ z ∧ z ≤ 65535 := by
    rcases le_or_gt 0 q with nonneg | negative
    · obtain ⟨zLow, zHigh⟩ := ofNonneg nonneg
      have above : (-1 : Int) < z := by exact_mod_cast (by linarith : (-1 : Rat) < z)
      have below : z < 65536 := by exact_mod_cast (by linarith : (z : Rat) < 65536)
      omega
    · obtain ⟨zLow, zHigh⟩ := ofNeg negative
      have above : (-32769 : Int) < z := by exact_mod_cast (by linarith : (-32769 : Rat) < z)
      have below : z < 1 := by exact_mod_cast (by linarith : (z : Rat) < 1)
      omega
  by_cases swapped : k = .le16
  · subst swapped
    have word : v = swap16 (BitVec.ofInt 16 z) := encoded _ (encSwap_eq hz bounds.1 bounds.2)
    refine ⟨by rw [if_pos rfl, word], fun present => ?_⟩
    have rule : vDec .le16 v = .fin (((swap16 v).toNat : Int) : Rat) := if_neg present
    rw [rule, word, swap16_swap16, toNat_ofInt_eq]
  · have word : v = BitVec.ofInt 16 z := by
      apply encoded
      rw [vEnc_of_scale_eq_zero integral swapped, encRaw_eq hz bounds.1 bounds.2]
    refine ⟨by rw [if_neg swapped, word], fun present => ?_⟩
    rw [vDec_of_scale_eq_zero integral swapped, decRaw_of_ne present, word, toNat_ofInt_eq]

/-- What V.ENC.k answered, where R123 specifies it. -/
theorem r16_eq_of_vEnc {k : Kind} {s t : State} {q : Rat} (operand : s.req.eng = .fin q)
    (h : exec (vEncOf k) s = .next t) : ∀ w, vEnc k (.fin q) = some w → t.resp.r16 = w := by
  intro w encoded
  rw [r16_of_vEncOf h, operand, encoded, encodedOr_some]

/-- Settles O33: below 32767.5 the pattern is not the sentinel, which is that of -32768. -/
theorem fixedPointRoundTripIsWithinHalfAUnit : Obligations.FixedPointRoundTripIsWithinHalfAUnit := by
  intro s t s' k n q kind operand inside answer fed
  obtain ⟨rfl, decimals⟩ := mem_fixedPoint_iff.mp kind
  obtain ⟨above, below⟩ := abs_lt.mp inside
  obtain ⟨word, comesBack⟩ := fixedPoint_roundTrip decimals (by linarith) below
    (r16_eq_of_vEnc operand answer)
  have near := abs_le.mp (abs_sub_roundHafz_le (q * 10 ^ scale k))
  have zLow : -32768 < roundHafz (q * 10 ^ scale k) := by
    exact_mod_cast (by linarith : (-32768 : Rat) < roundHafz (q * 10 ^ scale k))
  have zHigh : roundHafz (q * 10 ^ scale k) < 32768 := by
    exact_mod_cast (by linarith : (roundHafz (q * 10 ^ scale k) : Rat) < 32768)
  have present : t.resp.r16 ≠ noValue := by
    intro missing
    have least : (BitVec.ofInt 16 (roundHafz (q * 10 ^ scale k))).toInt = -32768 := by
      rw [← word, missing]; rfl
    rw [toInt_ofInt_of_mem (by omega) (by omega)] at least
    omega
  obtain ⟨r, decoded, close⟩ := comesBack present
  obtain ⟨u, decodes, frame, result⟩ := vDecOf_answers k s'
  exact ⟨u, r, decodes, frame, by rw [result, fed, decoded], close⟩

/-- Settles O34: the sentinel is the pattern of 32768, and with its bytes swapped that of 128. -/
theorem truncatingRoundTripIsWithinOne : Obligations.TruncatingRoundTripIsWithinOne := by
  intro s t s' k q integral operand nonneg below notSentinel answer fed
  obtain ⟨word, comesBack⟩ := truncating_roundTrip integral (by linarith) below
    (r16_eq_of_vEnc operand answer)
  obtain ⟨zLow, zHigh⟩ := (truncatesTo_truncToZero q).1 nonneg
  generalize truncToZero q = z at *
  have zNonneg : -1 < z := by exact_mod_cast (by linarith : (-1 : Rat) < z)
  have zBelow : z < 65536 := by exact_mod_cast (by linarith : (z : Rat) < 65536)
  have number := toNat_ofInt_eq z
  have present : t.resp.r16 ≠ noValue := by
    intro missing
    apply notSentinel
    by_cases swapped : k = .le16
    · rw [if_pos swapped] at word
      have pattern : BitVec.ofInt 16 z = 0x0080 := by
        rw [← swap16_swap16 (BitVec.ofInt 16 z), ← word, missing]; rfl
      have z128 : z = 128 := by
        rw [pattern] at number
        have : ((0x0080 : Word16).toNat : Int) = 128 := rfl
        omega
      rw [if_pos swapped, if_pos swapped]
      rw [z128] at zLow zHigh
      constructor <;> norm_num at * <;> assumption
    · rw [if_neg swapped] at word
      have z32768 : z = 32768 := by
        rw [← word, missing] at number
        have : (noValue.toNat : Int) = 32768 := rfl
        omega
      rw [if_neg swapped, if_neg swapped]
      rw [z32768] at zLow zHigh
      constructor <;> norm_num at * <;> assumption
  obtain ⟨u, decodes, frame, result⟩ := vDecOf_answers k s'
  refine ⟨u, _, decodes, frame, by rw [result, fed, comesBack present], ?_⟩
  rw [Int.emod_eq_of_lt (by omega) zBelow]
  constructor <;> linarith

/-! ### Decode then encode (R130, last bullet) -/

/-- A word that is not the sentinel is the encoding of what it decodes to, for every kind. -/
theorem vEnc_vDec {k : Kind} {raw : Word16} (present : raw ≠ noValue) :
    vEnc k (vDec k raw) = some raw := by
  have below : raw.toNat < 65536 := raw.isLt
  have natPattern (v : Word16) : BitVec.ofInt 16 (v.toNat : Int) = v := by
    rw [BitVec.ofInt_natCast, BitVec.ofNat_toNat, BitVec.setWidth_eq]
  by_cases integral : scale k = 0
  · by_cases swapped : k = .le16
    · subst swapped
      have rule : vDec .le16 raw = .fin (((swap16 raw).toNat : Int) : Rat) := if_neg present
      have swappedBelow : (swap16 raw).toNat < 65536 := (swap16 raw).isLt
      have encodes : vEnc .le16 (.fin (((swap16 raw).toNat : Int) : Rat)) =
          some (swap16 (BitVec.ofInt 16 (swap16 raw).toNat)) :=
        encSwap_eq (truncToZero_natCast _) (by omega) (by omega)
      rw [rule, encodes, natPattern, swap16_swap16]
    · rw [vDec_of_scale_eq_zero integral swapped, vEnc_of_scale_eq_zero integral swapped,
        decRaw_of_ne present, encRaw_eq (truncToZero_natCast _) (by omega) (by omega), natPattern]
  · obtain ⟨low, high⟩ := toInt_mem_of_ne_noValue present
    have rounded : roundHafz ((raw.toInt : Rat) / 10 ^ scale k * 10 ^ scale k) = raw.toInt := by
      rw [div_mul_cancel₀ _ (by positivity), roundHafz_intCast]
    rw [vDec_of_scale_ne_zero integral, vEnc_of_scale_ne_zero integral, decFixed_of_ne present,
      encFixed_eq rounded (by omega) high, BitVec.ofInt_toInt]

/-- Settles O35. -/
theorem encodeOfDecodeIsTheRawValue : Obligations.EncodeOfDecodeIsTheRawValue := by
  intro s t s' k present answer fed
  obtain ⟨u, encodes, frame, encoded⟩ := vEncOf_answers k s'
  refine ⟨u, encodes, frame, encoded _ ?_⟩
  rw [fed, reng_of_vDecOf answer, vEnc_vDec present]

/-! ### Write then parse (R183) -/

theorem abs_truncToZero_sub_lt (x : Rat) : |(truncToZero x : Rat) - x| < 1 := by
  obtain ⟨ofNonneg, ofNeg⟩ := truncatesTo_truncToZero x
  rw [abs_lt]
  rcases le_or_gt 0 x with nonneg | negative
  · obtain ⟨low, high⟩ := ofNonneg nonneg
    constructor <;> linarith
  · obtain ⟨low, high⟩ := ofNeg negative
    constructor <;> linarith

/-- Above -1 the integer part is its own residue. -/
theorem truncToZero_emod_of_gt {q : Rat} (low : -1 < q) (high : q < 65536) :
    truncToZero q % 65536 = truncToZero q := by
  obtain ⟨ofNonneg, ofNeg⟩ := truncatesTo_truncToZero q
  generalize truncToZero q = z at *
  apply Int.emod_eq_of_lt
  · have above : -1 < z := by
      rcases le_or_gt 0 q with nonneg | negative
      · exact_mod_cast (by linarith [ofNonneg nonneg] : (-1 : Rat) < z)
      · exact_mod_cast (by linarith [ofNeg negative] : (-1 : Rat) < z)
    omega
  · rcases le_or_gt 0 q with nonneg | negative
    · exact_mod_cast (by linarith [ofNonneg nonneg] : (z : Rat) < 65536)
    · exact_mod_cast (by linarith [ofNeg negative] : (z : Rat) < 65536)

/-- A negative integer part has the residue 65536 higher (R130). -/
theorem truncToZero_emod_of_le {q : Rat} (low : -32769 < q) (high : q ≤ -1) :
    truncToZero q % 65536 = truncToZero q + 65536 := by
  obtain ⟨zLow, zHigh⟩ := (truncatesTo_truncToZero q).2 (by linarith)
  generalize truncToZero q = z at *
  have above : -32769 < z := by exact_mod_cast (by linarith : (-32769 : Rat) < z)
  have below : z < 0 := by exact_mod_cast (by linarith : (z : Rat) < 0)
  omega

theorem scale_eq_zero_of_mem {k : Kind} (h : k ∈ [Kind.defaultRaw, .byte, .bool, .leBool, .le16, .mode,
    .time, .date, .domain, .devnum, .errnum, .devid]) : scale k = 0 := by revert k; decide

/-- Settles O36: the frame carries nibble, index and word through, and the word round-trips. -/
theorem writeThenParseComesBack : Obligations.WriteThenParseComesBack := by
  intro s₁ t₁ s₂ t₂ s₃ t₃ s₄ k q wid operand enc fedId fedRaw fenc lanes len
  obtain ⟨t₄, decodes, frame, knib, rindex, rvalue, -⟩ := fdec_of_built (built_of_fencWr fenc) lanes len
  have id : s₃.req.id16 = idOf .write s₁.req.addr := by
    rw [fedId]; exact r16_of_idInstr (x := .write) wid
  rw [fedRaw] at rvalue
  refine ⟨t₄, _, decodes, frame, knib, ?_, rindex, rvalue, fun s₅ fed => ?_⟩
  · rw [id, lowNibble_idOf_toNat]; rfl
  obtain ⟨t₅, decodes₅, frame₅, result⟩ := vDecOf_answers k s₅
  rw [fed, rvalue] at result
  have encoded := r16_eq_of_vEnc operand enc
  refine ⟨t₅, decodes₅, frame₅, fun missing => ?_, fun present =>
    ⟨fun n kind low high => ?_, fun kind => ⟨fun low high => ?_, fun low high => ?_⟩⟩⟩
  · rw [result, vDec_eq_nan_iff]; exact missing
  · obtain ⟨rfl, decimals⟩ := mem_fixedPoint_iff.mp kind
    rw [result]
    exact (fixedPoint_roundTrip decimals low high encoded).2 present
  · obtain ⟨-, comesBack⟩ :=
      truncating_roundTrip (scale_eq_zero_of_mem kind) (by linarith) high encoded
    refine ⟨_, result.trans (comesBack present), ?_⟩
    rw [truncToZero_emod_of_gt low high]
    exact abs_truncToZero_sub_lt q
  · obtain ⟨-, comesBack⟩ :=
      truncating_roundTrip (scale_eq_zero_of_mem kind) low (by linarith) encoded
    refine ⟨_, result.trans (comesBack present), ?_⟩
    rw [truncToZero_emod_of_le low high, Int.cast_add, Int.cast_ofNat, add_sub_add_right_eq_sub]
    exact abs_truncToZero_sub_lt q

end Sys2Proof.Machine
end

section
/-! Word combination, least significant word first (spec/43_word_combination.md, R173 and R174), the range
of all four combinations (R176), and the concrete float formats of R121. -/

namespace Sys2Proof.Machine

/-! ### The inverse kinds (R173, R174) -/

/-- V.COMB.INV_DOUBLE answers on every operand; `w2` does not occur in its result. -/
theorem vCombInvDouble_answers (s : State) :
    ∃ t, exec .vCombInvDouble s = .next t ∧ OnlyPorts s t ∧
      t.resp.reng = combineTwo s.req.w1 s.req.w0 :=
  ⟨_, exec_vCombInvDouble s, answered_onlyPorts _ s, rfl⟩

/-- V.COMB.INV_TRIPLE answers on every operand. -/
theorem vCombInvTriple_answers (s : State) :
    ∃ t, exec .vCombInvTriple s = .next t ∧ OnlyPorts s t ∧
      t.resp.reng = combineThree s.req.w2 s.req.w1 s.req.w0 :=
  ⟨_, exec_vCombInvTriple s, answered_onlyPorts _ s, rfl⟩

/-- Settles O38: the combinations of R171 and R172 with the words in the opposite order. -/
theorem combineLeastSignificantFirst : Obligations.CombineLeastSignificantFirst := by
  intro s
  constructor
  · obtain ⟨t, answer, frame, result⟩ := vCombInvDouble_answers s
    refine ⟨t, answer, frame, fun a b low high => ?_, fun missing => ?_⟩
    · rw [result, low, high, combineTwo_fin, add_comm]
    · rw [result, combineTwo_of_missing missing.symm]
  · obtain ⟨t, answer, frame, result⟩ := vCombInvTriple_answers s
    refine ⟨t, answer, frame, fun a b c low mid high => ?_, fun missing => ?_⟩
    · rw [result, low, mid, high, combineThree_fin]
      congr 1
      ring
    · exact result.trans (combineThree_of_missing (by tauto))

/-! ### The range of a combination (R176) -/

/-- A finite value is a natural number of at most `top`. -/
def NaturalUpTo (top : Nat) (e : Eng) : Prop := ∀ q, e = .fin q → ∃ n : Nat, q = (n : Rat) ∧ n ≤ top

/-- The words are at most 65535, so their combination is at most 65535 * 1001. -/
theorem combineTwo_naturalUpTo {high low : Eng} (h : wordValue high) (l : wordValue low) :
    NaturalUpTo 65600535 (combineTwo high low) := by
  intro q combined
  rcases combineTwo_cases high low with ⟨x, y, rfl, rfl, sum⟩ | ⟨-, nan⟩
  · obtain ⟨m, rfl, mBelow, -⟩ := h
    obtain ⟨n, rfl, nBelow, -⟩ := l
    rw [sum] at combined
    refine ⟨m * 1000 + n, ?_, by omega⟩
    rw [← Eng.fin.inj combined]
    push_cast
    rfl
  · rw [nan] at combined; cases combined

/-- As for two words, with 65535 * 1001001. -/
theorem combineThree_naturalUpTo {high mid low : Eng} (h : wordValue high) (m : wordValue mid)
    (l : wordValue low) : NaturalUpTo 65600600535 (combineThree high mid low) := by
  intro q combined
  rcases combineThree_cases high mid low with ⟨x, y, z, rfl, rfl, rfl, sum⟩ | ⟨-, nan⟩
  · obtain ⟨a, rfl, aBelow, -⟩ := h
    obtain ⟨b, rfl, bBelow, -⟩ := m
    obtain ⟨c, rfl, cBelow, -⟩ := l
    rw [sum] at combined
    refine ⟨a * 1000000 + b * 1000 + c, ?_, by omega⟩
    rw [← Eng.fin.inj combined]
    push_cast
    rfl
  · rw [nan] at combined; cases combined

/-- A natural number below `2^p` is a number of every format with `p` significand bits and the exponent
0. -/
theorem representsIn_nat {f : FloatFormat} {n p : Nat} (below : n < 2 ^ p)
    (precision : p ≤ (f.precision : Nat)) (low : f.minExponent ≤ 0) (high : 0 ≤ maxExponent f) :
    representsIn f (n : Rat) := by
  have fits : |(n : Int)| < 2 ^ (f.precision : Nat) := by
    rw [Nat.abs_cast]
    exact_mod_cast below.trans_le (Nat.pow_le_pow_right (by decide) precision)
  exact_mod_cast representsIn_int low high fits

/-- Settles O58: each operation combines its words in one of two orders, and 65600600535 is below
`2^36`. -/
theorem combinationsOfWordsStayInRange : Obligations.CombinationsOfWordsStayInRange := by
  intro s i top kind w0 w1 w2
  obtain ⟨t, answer, frame, natural, small⟩ : ∃ t, exec i s = .next t ∧ OnlyPorts s t ∧
      NaturalUpTo top t.resp.reng ∧ top < 2 ^ 36 := by
    simp only [List.mem_cons, Prod.mk.injEq, List.not_mem_nil, or_false] at kind
    obtain ⟨rfl, rfl⟩ | ⟨rfl, rfl⟩ | ⟨rfl, rfl⟩ | ⟨rfl, rfl⟩ := kind
    · obtain ⟨t, answer, frame, result⟩ := vCombDouble_answers s
      exact ⟨t, answer, frame, result ▸ combineTwo_naturalUpTo w0 w1, by decide⟩
    · obtain ⟨t, answer, frame, result⟩ := vCombInvDouble_answers s
      exact ⟨t, answer, frame, result ▸ combineTwo_naturalUpTo w1 w0, by decide⟩
    · obtain ⟨t, answer, frame, result⟩ := vCombTriple_answers s
      exact ⟨t, answer, frame, result ▸ combineThree_naturalUpTo w0 w1 w2, by decide⟩
    · obtain ⟨t, answer, frame, result⟩ := vCombInvTriple_answers s
      exact ⟨t, answer, frame, result ▸ combineThree_naturalUpTo w2 w1 w0, by decide⟩
  refine ⟨t, answer, frame, fun q finite => ?_⟩
  obtain ⟨n, rfl, bound⟩ := natural q finite
  exact ⟨n, rfl, bound, fun f precision low high =>
    representsIn_nat (bound.trans_lt small) precision low high⟩

/-! ### Concrete formats (R121) -/

/-- The kinds without decimals decode to natural numbers below 65536. -/
theorem vDec_naturalUpTo {k : Kind} (integral : scale k = 0) (raw : Word16) :
    NaturalUpTo 65535 (vDec k raw) := by
  intro q decoded
  have present : raw ≠ noValue := by
    intro missing
    rw [(vDec_eq_nan_iff k raw).mpr missing] at decoded
    cases decoded
  by_cases swapped : k = .le16
  · subst swapped
    have rule : vDec .le16 raw = .fin (((swap16 raw).toNat : Int) : Rat) := if_neg present
    rw [rule] at decoded
    have below : (swap16 raw).toNat < 65536 := (swap16 raw).isLt
    exact ⟨(swap16 raw).toNat, by rw [← Eng.fin.inj decoded, Int.cast_natCast], by omega⟩
  · rw [vDec_of_scale_eq_zero integral swapped, decRaw_of_ne present] at decoded
    have below : raw.toNat < 65536 := raw.isLt
    exact ⟨raw.toNat, by rw [← Eng.fin.inj decoded, Int.cast_natCast], by omega⟩

/-- The kinds that are not DEC1, DEC2 or DEC3 have no decimals. -/
theorem scale_eq_zero_of_ne {k : Kind} (h : k ≠ .dec1 ∧ k ≠ .dec2 ∧ k ≠ .dec3) : scale k = 0 := by
  obtain ⟨h1, h2, h3⟩ := h
  cases k with
  | dec1 => exact absurd rfl h1
  | dec2 => exact absurd rfl h2
  | dec3 => exact absurd rfl h3
  | _ => rfl

/-- Where the exact product is a number of the format, V.ENC computed in the format has one answer. -/
theorem encFixedIn_eq {f : FloatFormat} {n : Nat} {q : Rat} {z : Int} {v : Word16}
    (held : representsIn f (q * 10 ^ n)) (nearest : NearestAway (q * 10 ^ n) z)
    (low : -32768 ≤ z) (high : z ≤ 32767) (h : encFixedIn f n (.fin q) v) :
    v = BitVec.ofInt 16 z := by
  obtain ⟨x, rounds, pattern⟩ := h
  rw [powTen_eq, roundsTo_iff_of_represents held] at rounds
  subst rounds
  apply pattern
  have rounded : roundBy Config.roundTies (q * 10 ^ n) = z := roundHafz_eq nearest
  rw [rounded, patternIn_of_mem low high]

/-- V.DEC computed in a format is the format's rounding of the exact fixed-point decode. -/
theorem decFixedIn_fin_iff {f : FloatFormat} {n : Nat} {raw : Word16} {r : Rat} :
    decFixedIn f n raw (.fin r) ↔ ∃ q, decFixed n raw = .fin q ∧ roundsTo f q r := by
  rcases decFixed_cases n raw with ⟨missing, nan⟩ | ⟨present, number⟩
  · refine iff_of_false (fun h => h.1 missing) ?_
    rintro ⟨q, finite, -⟩
    rw [nan] at finite
    cases finite
  · rw [number]
    constructor
    · exact fun h => ⟨_, rfl, h.2⟩
    · rintro ⟨q, same, rounds⟩
      cases same
      exact ⟨present, rounds⟩

/-- Settles O59. -/
theorem concreteFormatsAgreeWhereTheyRepresent :
    Obligations.ConcreteFormatsAgreeWhereTheyRepresent := by
  intro f s k
  refine ⟨fun precision low high unscaled => ?_, fun n kind => ⟨?_, ?_⟩⟩
  · obtain ⟨t, answer, frame, result⟩ := vDecOf_answers k s
    refine ⟨t, answer, frame, fun q finite r => ?_⟩
    rw [result] at finite
    obtain ⟨m, rfl, bound⟩ := vDec_naturalUpTo (scale_eq_zero_of_ne unscaled) s.req.raw q finite
    exact roundsTo_iff_of_represents
      (representsIn_nat (p := 16) (by omega) precision low high) r
  · obtain ⟨rfl, decimals⟩ := mem_fixedPoint_iff.mp kind
    intro q z v operand held nearest low high computed
    obtain ⟨t, answer, frame, encoded⟩ := vEncOf_answers k s
    refine ⟨t, answer, frame, ?_⟩
    rw [encFixedIn_eq held nearest low high computed]
    apply encoded
    rw [operand, vEnc_of_scale_ne_zero decimals, encFixed_eq (roundHafz_eq nearest) low high]
  · obtain ⟨rfl, decimals⟩ := mem_fixedPoint_iff.mp kind
    obtain ⟨t, answer, frame, result⟩ := vDecOf_answers k s
    refine ⟨t, answer, frame, ?_, fun r => ?_⟩
    · rw [result, vDec_eq_nan_iff]; rfl
    · rw [result, vDec_of_scale_ne_zero decimals]
      exact decFixedIn_fin_iff

end Sys2Proof.Machine
end

section
/-! The environment (spec/48_environment_collaborators.md): what a step can do to it, what no step changes
of it, and the invariant that every step keeps. -/

namespace Sys2Proof.Machine

/-! ### Moves of the environment (R219) -/

/-- What one step does to the environment: nothing, or one of the host's events. -/
inductive EnvMove (e : Env) : Env → Prop
  | stay : EnvMove e e
  | receive (c : CanId) (p : List Byte) (n : Nat) : EnvMove e (e.receiveFrame c p n)
  | tick (ok : Bool) : EnvMove e (e.drain ok)
  | timerFires (k : Nat) : EnvMove e (e.fireTimer k)
  | timerCancelled (k : Nat) : EnvMove e (e.cancelTimer k)
  | poll (r : WatcherRef) : EnvMove e (e.beginReadCycle r)
  | control (k : Nat) (q : Rat) (ok : Bool) (n : Nat) : EnvMove e (e.controlWatcher k q ok n)

/-- Every answered step moves the environment by the event it takes, a request not at all. -/
theorem step_envMove {s t : State} (h : step s = .next t) : EnvMove s.env t.env := by
  rcases step_cases s with ⟨-, idle⟩ | ⟨r, rest, next, -⟩ | ⟨c, x, y, p, rest, next, -⟩ |
    ⟨e, rest, moved, event⟩
  · rw [idle] at h; cases h; exact .stay
  · obtain ⟨i, executed⟩ := step_request_next next h
    obtain ⟨-, env, -, -⟩ := exec_onlyPorts executed
    rw [env]
    exact .stay
  · rw [step_receive next (length_le_of_step_receive next h)] at h
    cases h
    exact .receive c p s.draws
  · rw [moved] at h
    cases h
    rcases event with ⟨ok, -, rfl⟩ | ⟨k, -, rfl⟩ | ⟨k, -, rfl⟩ | ⟨r, -, rfl⟩ | ⟨k, q, ok, -, rfl⟩
    · exact .tick ok
    · exact .timerFires k
    · exact .timerCancelled k
    · exact .poll r
    · exact .control k q ok s.draws

/-! ### References to watchers (R193) -/

section
variable (e : Env) (r : WatcherRef) (f : Watcher → Watcher)

@[simp] theorem modifyWatcher_senderId : (e.modifyWatcher r f).senderId = e.senderId := by
  unfold Env.modifyWatcher; cases r.registry <;> rfl

@[simp] theorem modifyWatcher_sent : (e.modifyWatcher r f).sent = e.sent := by
  unfold Env.modifyWatcher; cases r.registry <;> rfl

@[simp] theorem modifyWatcher_published : (e.modifyWatcher r f).published = e.published := by
  unfold Env.modifyWatcher; cases r.registry <;> rfl

@[simp] theorem modifyWatcher_timers : (e.modifyWatcher r f).timers = e.timers := by
  unfold Env.modifyWatcher; cases r.registry <;> rfl

/-- A change of one watcher is a change in its registry. -/
theorem modifyWatcher_registry (reg : Registry) :
    (e.modifyWatcher r f).registry reg =
      if reg = r.registry then (e.registry reg).modify r.position f else e.registry reg := by
  obtain ⟨own, position⟩ := r
  cases own <;> cases reg <;> rfl

/-- The changed watcher. -/
theorem modifyWatcher_watcher?_self : (e.modifyWatcher r f).watcher? r = (e.watcher? r).map f := by
  rw [Env.watcher?, modifyWatcher_registry, if_pos rfl, List.getElem?_modify_eq]
  rfl

/-- Every other watcher. -/
theorem modifyWatcher_watcher?_of_ne {r' : WatcherRef} (other : r' ≠ r) :
    (e.modifyWatcher r f).watcher? r' = e.watcher? r' := by
  obtain ⟨reg, position⟩ := r
  obtain ⟨reg', position'⟩ := r'
  rw [Env.watcher?, modifyWatcher_registry]
  split
  case isTrue same =>
    obtain rfl : reg' = reg := same
    have apart : position ≠ position' := fun place => other (by rw [place])
    rw [List.getElem?_modify_ne _ _ apart]
    rfl
  case isFalse => rfl

end

/-! ### Beginning a read cycle (R197, R207) -/

theorem beginReadCycle_of_enabled {e : Env} {r : WatcherRef} {w : Watcher} (h : e.watcher? r = some w)
    (enabled : w.failed = false) :
    e.beginReadCycle r = { e.modifyWatcher r Watcher.restart with
      queue := e.queue ++ readRequests e.senderId w.config } := by
  rw [Env.beginReadCycle, h]
  simp [Watcher.enabled, enabled]

theorem beginReadCycle_of_failed {e : Env} {r : WatcherRef} {w : Watcher} (h : e.watcher? r = some w)
    (failed : w.failed = true) : e.beginReadCycle r = e := by
  rw [Env.beginReadCycle, h]
  simp [Watcher.enabled, failed]

/-- Everything a timer can do: nothing, or it is removed and begins a read cycle (R206, R211). -/
theorem fireTimer_cases (e : Env) (k : Nat) :
    e.fireTimer k = e ∨ ∃ o, e.timers[k]? = some o ∧
      e.fireTimer k = (e.cancelTimer k).beginReadCycle o.watcher := by
  unfold Env.fireTimer
  split
  case h_1 => exact .inl rfl
  case h_2 o pending => exact .inr ⟨o, pending, rfl⟩

/-- What a tick sends (R208). -/
theorem drain_cases (e : Env) (ok : Bool) :
    (e.queue = [] ∧ e.drain ok = e) ∨
    ∃ f q, e.queue = f :: q ∧
      e.drain ok = { e with queue := q, sent := e.sent ++ [⟨f, false, ok⟩] } := by
  unfold Env.drain
  split
  case h_1 empty => exact .inl ⟨empty, rfl⟩
  case h_2 f q queued => exact .inr ⟨f, q, queued, rfl⟩

/-- A frame that is no confirmation is only logged (R201). -/
theorem receiveFrame_of_not_confirm {e : Env} {c : CanId} {p : List Byte} {n : Nat}
    (h : (decodeFrame p).confirm = false) :
    e.receiveFrame c p n = { e with logged := e.logged ++ [logEntry c p] } := by
  rw [receiveFrame_eq, if_neg]
  exact Bool.not_eq_true _ ▸ h

/-- A confirmation is offered to both registries (R200). -/
theorem receiveFrame_of_confirm {e : Env} {c : CanId} {p : List Byte} {n : Nat}
    (h : (decodeFrame p).confirm = true) :
    e.receiveFrame c p n =
      ({ e with logged := e.logged ++ [logEntry c p] } : Env).dispatch c (decodeFrame p) n := by
  rw [receiveFrame_eq]
  exact if_pos h

/-- What a confirmation leaves of a registry. -/
theorem receiveFrame_registry {e : Env} {c : CanId} {p : List Byte} {n : Nat} (reg : Registry)
    (h : (decodeFrame p).confirm = true) :
    (e.receiveFrame c p n).registry reg = offerWatchers (decide (reg = .writable)) n c
      (decodeFrame p).rindex (decodeFrame p).rvalue 0 (e.registry reg) := by
  rw [receiveFrame_of_confirm h]
  cases reg <;> rfl

/-- The watcher at a reference after a delivered frame: as it was, or as `onFrame` leaves it (R200 to
R202). -/
theorem receiveFrame_watcher?_cases (e : Env) (c : CanId) (p : List Byte) (n : Nat) (r : WatcherRef) :
    (e.receiveFrame c p n).watcher? r = e.watcher? r ∨
    ∃ ph, (e.receiveFrame c p n).watcher? r = (e.watcher? r).map fun w =>
      (w.onFrame c (decodeFrame p).rindex (decodeFrame p).rvalue ph).1 := by
  cases h : (decodeFrame p).confirm with
  | false =>
    refine .inl ?_
    rw [receiveFrame_of_not_confirm h]
    obtain ⟨own, position⟩ := r
    cases own <;> rfl
  | true =>
    refine .inr ⟨Config.anyPhase n (decide (r.registry = .writable)) (0 + r.position), ?_⟩
    rw [Env.watcher?, receiveFrame_registry r.registry h, offerWatchers_getElem?]
    rfl

/-! ### Setup (R191, R207) -/

/-- What setup fixes of one watcher. -/
def Watcher.setup (w : Watcher) : WatcherConfig × Bool := (w.config, w.failed)

theorem onFrame_fst_setup (w : Watcher) (c : CanId) (ix v : Word16) (ph : Phase) :
    (w.onFrame c ix v ph).1.setup = w.setup := by
  obtain ⟨config, failed⟩ := onFrame_setup w c ix v ph
  rw [Watcher.setup, config, failed]
  rfl

/-- The setup of an environment, with the two registries as functions of the watchers. -/
theorem setup_eq (e : Env) : e.setup = (e.senderId, e.tickIntervalMs, e.settleDelayMs,
    e.readOnly.map Watcher.setup, e.writable.map Watcher.setup) := rfl

theorem map_setup_offerWatchers (wr : Bool) (n : Nat) (c : CanId) (ix v : Word16) (k : Nat)
    (ws : List Watcher) : (offerWatchers wr n c ix v k ws).map Watcher.setup = ws.map Watcher.setup := by
  induction ws generalizing k with
  | nil => rfl
  | cons w ws ih => rw [offerWatchers, List.map_cons, List.map_cons, onFrame_fst_setup, ih]

theorem map_setup_modify_restart (ws : List Watcher) (k : Nat) :
    (ws.modify k Watcher.restart).map Watcher.setup = ws.map Watcher.setup := by
  apply List.ext_getElem?
  intro i
  rw [List.getElem?_map, List.getElem?_map]
  rcases eq_or_ne k i with rfl | apart
  · rw [List.getElem?_modify_eq, Option.map_eq_map, Option.map_map]
    rfl
  · rw [List.getElem?_modify_ne _ _ apart]

theorem receiveFrame_setup (e : Env) (c : CanId) (p : List Byte) (n : Nat) :
    (e.receiveFrame c p n).setup = e.setup := by
  cases h : (decodeFrame p).confirm with
  | false => rw [receiveFrame_of_not_confirm h]; rfl
  | true =>
    rw [receiveFrame_of_confirm h, setup_eq, setup_eq]
    simp only [Env.dispatch, map_setup_offerWatchers]

theorem modifyWatcher_restart_setup (e : Env) (r : WatcherRef) :
    (e.modifyWatcher r Watcher.restart).setup = e.setup := by
  obtain ⟨own, position⟩ := r
  rw [setup_eq, setup_eq]
  cases own <;> simp only [Env.modifyWatcher, map_setup_modify_restart]

theorem beginReadCycle_setup (e : Env) (r : WatcherRef) : (e.beginReadCycle r).setup = e.setup := by
  rcases beginReadCycle_cases e r with same | ⟨w, -, -, cycle⟩
  · rw [same]
  · rw [cycle]; exact modifyWatcher_restart_setup e r

/-- No move changes the setup (R191: "never change after setup"). -/
theorem EnvMove.setup_eq {e e' : Env} (h : EnvMove e e') : e'.setup = e.setup := by
  cases h with
  | stay => rfl
  | receive c p n => exact receiveFrame_setup e c p n
  | tick ok =>
    rcases drain_cases e ok with ⟨-, same⟩ | ⟨f, q, -, drained⟩
    · rw [same]
    · rw [drained]; rfl
  | timerFires k =>
    rcases fireTimer_cases e k with same | ⟨o, -, fired⟩
    · rw [same]
    · rw [fired, beginReadCycle_setup]; rfl
  | timerCancelled k => rfl
  | poll r => exact beginReadCycle_setup e r
  | control k q ok n =>
    rcases controlWatcher_cases e k q ok n with same | ⟨w, -, -, sent⟩
    · rw [same]
    · rw [sent]; rfl

/-- Settles O11. -/
theorem setupNeverChanges : Obligations.SetupNeverChanges :=
  fun _ _ answer => (step_envMove answer).setup_eq

/-! ### Soundness of a watcher (R191, R196, R204, R205, R207) -/

/-- The words of a multi-word kind decode to words or NaN (R176). -/
theorem wordValue_vDec {k : Kind} (multi : wordCount k ≠ 1) (raw : Word16) :
    wordValue (vDec k raw) := by
  have rule : vDec k raw = decRaw raw := by
    cases k with
    | double | triple | invDouble | invTriple => rfl
    | _ => exact absurd rfl multi
  rw [rule]
  rcases decRaw_cases raw with ⟨-, nan⟩ | ⟨present, number⟩
  · rw [nan]; trivial
  · rw [number]
    exact ⟨raw.toNat, rfl, raw.isLt, fun h => present (BitVec.eq_of_toNat_eq h)⟩

/-- Every slot holds NaN or a word (R205). -/
def Slots.words (sl : Slots) : Prop := wordValue sl.s0 ∧ wordValue sl.s1 ∧ wordValue sl.s2

theorem words_unset : Slots.unset.words := ⟨trivial, trivial, trivial⟩

theorem Slots.words.put {sl : Slots} (h : sl.words) (k : Nat) {e : Eng} (he : wordValue e) :
    (sl.put k e).words := by
  obtain ⟨h0, h1, h2⟩ := h
  unfold Slots.put
  split
  · exact ⟨he, h1, h2⟩
  · exact ⟨h0, he, h2⟩
  · exact ⟨h0, h1, he⟩

/-- A new watcher of either registry is sound (R194, R207). -/
theorem start_sound (reg : Registry) (c : WatcherConfig) : Watcher.Sound reg (Watcher.start reg c) where
  mark := by
    have multi : isMultiWordKind c.encoding = true ↔ wordCount c.encoding ≠ 1 := by
      cases c.encoding <;> decide
    simp only [Watcher.start, Bool.and_eq_true, decide_eq_true_eq, multi]
  words := words_unset
  single := fun _ => ⟨rfl, rfl⟩
  finite := fun _ => by simp [Watcher.start]
  inert := fun _ => ⟨rfl, rfl, rfl⟩

/-- Beginning a read cycle keeps an enabled watcher sound. -/
theorem Watcher.Sound.restart {reg : Registry} {w : Watcher} (h : Watcher.Sound reg w)
    (enabled : w.failed = false) : Watcher.Sound reg w.restart where
  mark := h.mark
  words := words_unset
  single := fun one => ⟨rfl, (if_pos one).trans (h.single one).2⟩
  finite := h.finite
  inert := fun failed => absurd failed (by simp [enabled])

/-- Publishing a value keeps an enabled single-word watcher sound. -/
theorem Watcher.Sound.takeValue {reg : Registry} {w : Watcher} (h : Watcher.Sound reg w)
    (enabled : w.failed = false) (one : wordCount w.config.encoding = 1) (v : Word16) :
    Watcher.Sound reg (w.takeValue v).1 where
  mark := h.mark
  words := h.words
  single := h.single
  finite := fun multi => absurd one multi
  inert := fun failed => absurd (show w.failed = true from failed) (by simp [enabled])

/-- Storing a word keeps an enabled multi-word watcher sound, also when it then publishes a number. -/
theorem Watcher.Sound.storeWord {reg : Registry} {w : Watcher} (h : Watcher.Sound reg w)
    (enabled : w.failed = false) (multi : wordCount w.config.encoding ≠ 1) (ix v : Word16) (ph : Phase)
    {last : Option Eng} (finite : last ≠ some .nan) :
    Watcher.Sound reg { w.storeWord ix v ph with lastPublished := last } where
  mark := h.mark
  words := Slots.words.put h.words _ (wordValue_vDec multi v)
  single := fun one => absurd one multi
  finite := fun _ => finite
  inert := fun failed => absurd (show w.failed = true from failed) (by simp [enabled])

/-- A frame keeps a watcher sound. -/
theorem Watcher.Sound.onFrame {reg : Registry} {w : Watcher} (h : Watcher.Sound reg w) (c : CanId)
    (ix v : Word16) (ph : Phase) : Watcher.Sound reg (w.onFrame c ix v ph).1 := by
  have notFailed (enabled : w.enabled = true) : w.failed = false := by
    simpa [Watcher.enabled] using enabled
  rcases onFrame_cases w c ix v ph with same | ⟨enabled, -, one, taken⟩ | ⟨enabled, -, multi, taken⟩
  · rw [same]; exact h
  · rw [taken]; exact h.takeValue (notFailed enabled) one v
  · rw [taken]
    rcases takeWord_cases w ix v ph with ⟨q, -, published⟩ | stored
    · rw [published]
      exact h.storeWord (notFailed enabled) multi ix v ph (by simp)
    · rw [stored]
      exact h.storeWord (notFailed enabled) multi ix v ph (last := w.lastPublished) (h.finite multi)

/-! ### Soundness of the environment -/

theorem Env.Sound.watchers {e : Env} (h : e.Sound) (reg : Registry) :
    ∀ w ∈ e.registry reg, Watcher.Sound reg w := by
  cases reg with
  | readOnly => exact h.readOnly
  | writable => exact h.writable

/-- An environment with the same setup is sound as well when its watchers, its queue and its timers
are. -/
theorem Env.Sound.of_setup {e e' : Env} (h : e.Sound) (setup : e'.setup = e.setup)
    (watchers : ∀ reg, ∀ w ∈ e'.registry reg, Watcher.Sound reg w)
    (queue : ∀ f ∈ e'.queue, isReadRequest e.senderId f)
    (timers : ∀ t ∈ e'.timers, t.delayMs = e.settleDelayMs ∧ t.watcher.registry = .writable ∧
      ∃ w, e.writable[t.watcher.position]? = some w ∧ w.failed = false) : e'.Sound := by
  simp only [setup_eq, Prod.mk.injEq] at setup
  obtain ⟨sender, tick, settle, -, writable⟩ := setup
  refine ⟨sender ▸ h.sender, watchers .readOnly, watchers .writable, sender ▸ queue,
    by rw [tick, settle]; exact h.periods, fun t pending => ?_⟩
  obtain ⟨delay, reg, w, atPlace, enabled⟩ := timers t pending
  refine ⟨delay.trans settle.symm, reg, ?_⟩
  have same : (e'.writable[t.watcher.position]?).map Watcher.setup = some w.setup := by
    rw [← List.getElem?_map, writable, List.getElem?_map, atPlace]
    rfl
  obtain ⟨w', atPlace', setup'⟩ := Option.map_eq_some_iff.mp same
  exact ⟨w', atPlace', (congrArg Prod.snd setup').trans enabled⟩

/-- BUILD.RD gives the printed layout of a read request (R69, R180). -/
theorem buildRd_toFrame (c : CanId) (a : Addr) (ix : Word16) :
    (buildRd c a ix).toFrame = ⟨c, extendedBytes (idLayout a .read) ix 0⟩ := by
  rw [buildRd, encodeRead, buildFrame_toFrame, readId_eq_idLayout]

theorem isReadRequest_of_mem {c : CanId} {cfg : WatcherConfig} {f : CanFrame}
    (h : f ∈ readRequests c cfg) : isReadRequest c f := by
  obtain ⟨k, -, rfl⟩ := List.mem_map.mp h
  rw [buildRd_toFrame]
  exact ⟨rfl, _, _, rfl⟩

theorem Env.Sound.receiveFrame {e : Env} (h : e.Sound) (c : CanId) (p : List Byte) (n : Nat) :
    (e.receiveFrame c p n).Sound := by
  cases confirm : (decodeFrame p).confirm with
  | false =>
    rw [receiveFrame_of_not_confirm confirm]
    exact ⟨h.sender, h.readOnly, h.writable, h.queue, h.periods, h.timers⟩
  | true =>
    have unmoved : (e.receiveFrame c p n).queue = e.queue ∧ (e.receiveFrame c p n).timers = e.timers := by
      rw [receiveFrame_of_confirm confirm]
      exact ⟨rfl, rfl⟩
    refine h.of_setup (receiveFrame_setup e c p n) (fun reg w' member => ?_)
      (unmoved.1 ▸ h.queue) (unmoved.2 ▸ h.timers)
    obtain ⟨i, atPlace⟩ := List.mem_iff_getElem?.mp member
    rw [receiveFrame_registry reg confirm, offerWatchers_getElem?] at atPlace
    obtain ⟨w, before, rfl⟩ := Option.map_eq_some_iff.mp atPlace
    exact (h.watchers reg w (List.mem_of_getElem? before)).onFrame c _ _ _

theorem Env.Sound.beginReadCycle {e : Env} (h : e.Sound) (r : WatcherRef) :
    (e.beginReadCycle r).Sound := by
  rcases beginReadCycle_cases e r with same | ⟨w, found, enabled, cycle⟩
  · rw [same]; exact h
  · have setup := beginReadCycle_setup e r
    rw [cycle] at setup ⊢
    refine h.of_setup setup (fun reg w' member => ?_) (fun f queued => ?_) ?_
    · have member : w' ∈ (e.modifyWatcher r Watcher.restart).registry reg := by cases reg <;> exact member
      obtain ⟨i, atPlace⟩ := List.mem_iff_getElem?.mp member
      by_cases own : (⟨reg, i⟩ : WatcherRef) = r
      · subst own
        have restarted := modifyWatcher_watcher?_self e ⟨reg, i⟩ Watcher.restart
        rw [found, show (e.modifyWatcher ⟨reg, i⟩ Watcher.restart).watcher? ⟨reg, i⟩ = some w' from
          atPlace] at restarted
        obtain rfl := Option.some.inj restarted
        exact (h.watchers reg w (List.mem_of_getElem? found)).restart enabled
      · have unchanged := modifyWatcher_watcher?_of_ne e r Watcher.restart own
        exact h.watchers reg w' (List.mem_of_getElem? (unchanged.symm.trans atPlace))
    · rcases List.mem_append.mp queued with old | new
      · exact h.queue f old
      · exact isReadRequest_of_mem new
    · have timers : (e.modifyWatcher r Watcher.restart).timers = e.timers := modifyWatcher_timers e r _
      exact timers ▸ h.timers

theorem Env.Sound.cancelTimer {e : Env} (h : e.Sound) (k : Nat) : (e.cancelTimer k).Sound :=
  ⟨h.sender, h.readOnly, h.writable, h.queue, h.periods, fun t pending => h.timers t (List.mem_of_mem_eraseIdx pending)⟩

theorem Env.Sound.drain {e : Env} (h : e.Sound) (ok : Bool) : (e.drain ok).Sound := by
  rcases drain_cases e ok with ⟨-, same⟩ | ⟨f, q, queued, drained⟩
  · rw [same]; exact h
  · rw [drained]
    exact ⟨h.sender, h.readOnly, h.writable,
      fun g member => h.queue g (queued ▸ List.mem_cons_of_mem f member), h.periods, h.timers⟩

theorem Env.Sound.controlWatcher {e : Env} (h : e.Sound) (k : Nat) (q : Rat) (ok : Bool) (n : Nat) :
    (e.controlWatcher k q ok n).Sound := by
  rcases controlWatcher_cases e k q ok n with same | ⟨w, found, enabled, sent⟩
  · rw [same]; exact h
  · rw [sent]
    refine ⟨h.sender, h.readOnly, h.writable, h.queue, h.periods, fun t pending => ?_⟩
    rcases List.mem_append.mp pending with old | new
    · exact h.timers t old
    · obtain rfl := List.mem_singleton.mp new
      exact ⟨rfl, rfl, w, found, enabled⟩

/-- Every move keeps the invariant. -/
theorem EnvMove.sound {e e' : Env} (h : EnvMove e e') (sound : e.Sound) : e'.Sound := by
  cases h with
  | stay => exact sound
  | receive c p n => exact sound.receiveFrame c p n
  | tick ok => exact sound.drain ok
  | timerFires k =>
    rcases fireTimer_cases e k with same | ⟨o, -, fired⟩
    · rw [same]; exact sound
    · rw [fired]; exact (sound.cancelTimer k).beginReadCycle o.watcher
  | timerCancelled k => exact sound.cancelTimer k
  | poll r => exact sound.beginReadCycle r
  | control k q ok n => exact sound.controlWatcher k q ok n

/-- Settles O10. -/
theorem everyStepKeepsSoundness : Obligations.EveryStepKeepsSoundness :=
  fun _ _ sound answer => (step_envMove answer).sound sound

/-- Settles O8: every watcher of the reset state is one that starts. -/
theorem resetStartsTheEnvironment : Obligations.ResetStartsTheEnvironment := by
  refine ⟨rfl, rfl, rfl, fun reg w member => ?_⟩
  have started : ∃ c, Watcher.start reg c = w := by
    cases reg with
    | readOnly => exact (List.mem_map.mp member).imp fun _ h => h.2
    | writable => exact (List.mem_map.mp member).imp fun _ h => h.2
  obtain ⟨c, rfl⟩ := started
  exact ⟨rfl, rfl, rfl⟩

/-- The start values are sound, for every deployment (R8, R194). -/
theorem envStart_sound (d : Deployment) : (Env.start d).Sound where
  sender := by
    have extended : (d.senderId.zeroExtend 29).toNat = d.senderId.toNat :=
      BitVec.toNat_setWidth_of_le (by decide)
    exact extended.trans_lt d.senderId.isLt
  readOnly := by
    intro w member
    obtain ⟨c, -, rfl⟩ := List.mem_map.mp member
    exact start_sound .readOnly c
  writable := by
    intro w member
    obtain ⟨c, -, rfl⟩ := List.mem_map.mp member
    exact start_sound .writable c
  queue := fun _ member => absurd member (List.not_mem_nil)
  periods := ⟨d.tickIntervalMs.pos, d.settleDelayMs.pos⟩
  timers := fun _ member => absurd member (List.not_mem_nil)

/-- Settles O9. -/
theorem soundAtReset : Obligations.SoundAtReset := envStart_sound Config.deployment

end Sys2Proof.Machine
end

section
/-! The environment's rules, event by event (spec/48_environment_collaborators.md R197 to R213): delivered
frames, polls, ticks, timers and control. -/

namespace Sys2Proof.Machine

theorem wordCount_eq_wordsOf (k : Kind) : wordCount k = wordsOf k := (kindAttributesFollowTheTable k).1

/-! ### Delivered frames that reach no watcher, and the log (R200, R201, R213) -/

/-- A payload whose first byte has not the low nibble 2 is no confirmation (R94). -/
theorem confirm_eq_false {p : List Byte} (h : ∀ b, p.head? = some b → b &&& 0x0F ≠ 2) :
    (decodeFrame p).confirm = false := by
  cases p with
  | nil => rfl
  | cons b more =>
    obtain ⟨-, -, confirm⟩ := decodeFrame_kind_of_byte (p := b :: more) (by simp)
    rw [confirm]
    apply decide_eq_false
    intro two
    exact h b rfl ((lowNibble_eq_two_iff b).mp two)

/-- Settles O43. -/
theorem droppedFramesReachNoWatcher : Obligations.DroppedFramesReachNoWatcher := by
  intro s c x y p rest next legal dropped
  refine ⟨_, step_receive next legal, ?_⟩
  rw [State.moved_env, receiveFrame_of_not_confirm (confirm_eq_false dropped)]
  exact ⟨rfl, rfl, rfl, rfl, rfl, rfl⟩

/-- Every delivered frame leaves its entry, whether it is dispatched or not. -/
theorem receiveFrame_logged (e : Env) (c : CanId) (p : List Byte) (n : Nat) :
    (e.receiveFrame c p n).logged = e.logged ++ [logEntry c p] := by
  rw [receiveFrame_eq]
  split <;> rfl

/-- Settles O44. -/
theorem deliveredFramesAreLogged : Obligations.DeliveredFramesAreLogged := by
  intro s c x y p rest next legal
  refine ⟨_, (logEntry c p).value, step_receive next legal, receiveFrame_logged _ c p _,
    fun ack => if_pos ack, fun other => ?_⟩
  rw [← s16_eq_toInt]
  exact if_neg other

/-! ### What one watcher publishes for one frame (R202, R212) -/

section
variable (reg : Registry) (c : CanId) (ix v : Word16)

/-- The publications of one registry for the watcher at one place are those that its `onFrame` makes. -/
theorem filter_offerPublished (ws : List Watcher) (start i : Nat) {w : Watcher} (h : ws[i]? = some w) :
    (offerPublished reg c ix v start ws).filter (fun pub => pub.watcher = ⟨reg, start + i⟩) =
      ((w.onFrame c ix v .idle).2.map fun e => ⟨⟨reg, start + i⟩, e⟩).toList := by
  induction ws generalizing start i with
  | nil => cases h
  | cons w' ws ih =>
    cases i with
    | zero =>
      obtain rfl : w' = w := by simpa using h
      have later : (offerPublished reg c ix v (start + 1) ws).filter
          (fun pub => pub.watcher = ⟨reg, start + 0⟩) = [] := by
        rw [List.filter_eq_nil_iff]
        intro pub member
        obtain ⟨j, -, -, place, -⟩ := (mem_offerPublished reg c ix v ws (start + 1) pub).mp member
        simp only [place, decide_eq_true_eq, WatcherRef.mk.injEq]
        omega
      rw [offerPublished]
      cases (w'.onFrame c ix v .idle).2 with
      | none => simpa using later
      | some e => simpa using later
    | succ i =>
      have rest := ih (start + 1) i (by simpa using h)
      rw [show start + 1 + i = start + (i + 1) by omega] at rest
      rw [offerPublished]
      cases (w'.onFrame c ix v .idle).2 with
      | none => exact rest
      | some e => rw [← rest]; exact List.filter_cons_of_neg (by simp)

/-- A registry publishes nothing in the name of the other's watchers. -/
theorem filter_offerPublished_of_ne {other : Registry} (apart : other ≠ reg) (ws : List Watcher)
    (start i : Nat) :
    (offerPublished other c ix v start ws).filter (fun pub => pub.watcher = ⟨reg, i⟩) = [] := by
  rw [List.filter_eq_nil_iff]
  intro pub member
  obtain ⟨j, -, -, place, -⟩ := (mem_offerPublished other c ix v ws start pub).mp member
  simp [place, apart]

end

/-- A delivered confirmation acts on each watcher by `onFrame`, and the publications of this step in its
name are those of `onFrame`. -/
theorem receiveFrame_watcher {e : Env} {reg : Registry} {i : Nat} {w : Watcher}
    (h : (e.registry reg)[i]? = some w) (c : CanId) {p : List Byte} (n : Nat)
    (confirm : (decodeFrame p).confirm = true) :
    ∃ new ph, (e.receiveFrame c p n).published = e.published ++ new ∧
      ((e.receiveFrame c p n).registry reg)[i]? =
        some (w.onFrame c (decodeFrame p).rindex (decodeFrame p).rvalue ph).1 ∧
      new.filter (fun pub => pub.watcher = ⟨reg, i⟩) =
        ((w.onFrame c (decodeFrame p).rindex (decodeFrame p).rvalue ph).2.map
          fun e => ⟨⟨reg, i⟩, e⟩).toList := by
  generalize hix : (decodeFrame p).rindex = ix
  generalize hv : (decodeFrame p).rvalue = v
  have own := filter_offerPublished reg c ix v (e.registry reg) 0 i h
  rw [Nat.zero_add] at own
  refine ⟨inSomeOrder n (offerPublished .readOnly c ix v 0 e.readOnly)
    (offerPublished .writable c ix v 0 e.writable),
    Config.anyPhase n (decide (reg = .writable)) (0 + i), ?_, ?_, ?_⟩
  · rw [receiveFrame_of_confirm confirm, ← hix, ← hv]
    rfl
  · rw [receiveFrame_registry reg confirm, offerWatchers_getElem?, h, hix, hv]
    rfl
  · rw [onFrame_published w c ix v _ .idle, ← own, inSomeOrder]
    cases reg with
    | readOnly =>
      have silent := filter_offerPublished_of_ne .readOnly c ix v (other := .writable) (by decide)
        e.writable 0 i
      split <;> simp only [List.filter_append, silent, List.append_nil, List.nil_append] <;> rfl
    | writable =>
      have silent := filter_offerPublished_of_ne .writable c ix v (other := .readOnly) (by decide)
        e.readOnly 0 i
      split <;> simp only [List.filter_append, silent, List.append_nil, List.nil_append] <;> rfl

/-! ### The match of a frame (R203) -/

/-- The match of R203 with the word count of R29's table. -/
theorem matchesFrame_iff (w : Watcher) (c : CanId) (ix : Word16) :
    w.matchesFrame c ix = true ↔ c = w.config.target.numericAddress.setWidth 29 ∧
      w.config.elsterIndex.toNat ≤ ix.toNat ∧
      ix.toNat < w.config.elsterIndex.toNat + wordsOf w.config.encoding := by
  rw [Watcher.matchesFrame, wordCount_eq_wordsOf, Bool.and_eq_true, Bool.and_eq_true, and_assoc,
    decide_eq_true_eq, decide_eq_true_eq, decide_eq_true_eq]

/-- A match of an enabled single-word watcher (R204). -/
theorem onFrame_single {w : Watcher} {c : CanId} {ix : Word16} (enabled : w.failed = false)
    (matched : w.matchesFrame c ix = true) (one : wordsOf w.config.encoding = 1) (v : Word16)
    (ph : Phase) : w.onFrame c ix v ph = w.takeValue v := by
  rw [← wordCount_eq_wordsOf] at one
  simp [Watcher.onFrame, Watcher.enabled, enabled, matched, one]

/-- A match of an enabled multi-word watcher (R205). -/
theorem onFrame_multi {w : Watcher} {c : CanId} {ix : Word16} (enabled : w.failed = false)
    (matched : w.matchesFrame c ix = true) (multi : wordsOf w.config.encoding ≠ 1) (v : Word16)
    (ph : Phase) : w.onFrame c ix v ph = w.takeWord ix v ph := by
  rw [← wordCount_eq_wordsOf] at multi
  simp [Watcher.onFrame, Watcher.enabled, enabled, matched, multi]

/-- A frame outside a watcher's match, or any frame for a failed one (R203, R207). -/
theorem onFrame_of_outside {w : Watcher} {c : CanId} {ix : Word16}
    (h : w.failed = true ∨ c ≠ w.config.target.numericAddress.setWidth 29 ∨
      ix.toNat < w.config.elsterIndex.toNat ∨
      w.config.elsterIndex.toNat + wordsOf w.config.encoding ≤ ix.toNat) (v : Word16) (ph : Phase) :
    w.onFrame c ix v ph = (w, none) := by
  apply onFrame_of_not
  rw [← Bool.not_eq_true, Bool.and_eq_true, matchesFrame_iff]
  rintro ⟨enabled, id, low, high⟩
  rcases h with failed | other | below | above
  · simp [Watcher.enabled, failed] at enabled
  · exact other id
  · omega
  · omega

/-- Settles O45. -/
theorem singleWordWatchersPublishEachMatch : Obligations.SingleWordWatchersPublishEachMatch := by
  intro s c x y p rest reg i w next legal confirm found enabled one id index
  obtain ⟨new, ph, published, after, own⟩ := receiveFrame_watcher found c s.draws confirm
  have matched : w.matchesFrame c (decodeFrame p).rindex = true :=
    (matchesFrame_iff w c _).mpr ⟨id, by rw [index], by rw [index, one]; omega⟩
  rw [onFrame_single enabled matched one] at after own
  exact ⟨_, new, step_receive next legal, published, after, own⟩

/-- Settles O47. -/
theorem otherWatchersAreLeftAlone : Obligations.OtherWatchersAreLeftAlone := by
  intro s c x y p rest reg i w next legal found outside
  cases confirm : (decodeFrame p).confirm with
  | false =>
    refine ⟨_, [], step_receive next legal, ?_⟩
    rw [State.moved_env, receiveFrame_of_not_confirm confirm]
    refine ⟨(List.append_nil _).symm, ?_, rfl⟩
    cases reg <;> exact found
  | true =>
    obtain ⟨new, ph, published, after, own⟩ := receiveFrame_watcher found c s.draws confirm
    rw [onFrame_of_outside outside] at after own
    exact ⟨_, new, step_receive next legal, published, after, own⟩

/-! ### Combining the slots (R205) -/

/-- The slots of a multi-word kind have exactly the combination that the formulas of R171 to R175
give. -/
theorem combine_isCombination {k : Kind} (multi : wordsOf k ≠ 1) (sl : Slots) :
    ∃ e, sl.combine k = some e ∧ IsCombination k sl e := by
  cases k with
  | double =>
    refine ⟨_, rfl, ?_⟩
    rcases combineTwo_cases sl.s0 sl.s1 with ⟨a, b, h0, h1, sum⟩ | ⟨missing, nan⟩
    · exact .inl ⟨a, b, h0, h1, sum⟩
    · exact .inr ⟨missing, nan⟩
  | invDouble =>
    refine ⟨_, rfl, ?_⟩
    rcases combineTwo_cases sl.s1 sl.s0 with ⟨b, a, h1, h0, sum⟩ | ⟨missing, nan⟩
    · exact .inl ⟨a, b, h0, h1, by rw [add_comm]; exact sum⟩
    · exact .inr ⟨missing.symm, nan⟩
  | triple =>
    refine ⟨_, rfl, ?_⟩
    rcases combineThree_cases sl.s0 sl.s1 sl.s2 with ⟨a, b, d, h0, h1, h2, sum⟩ | ⟨missing, nan⟩
    · exact .inl ⟨a, b, d, h0, h1, h2, sum⟩
    · exact .inr ⟨missing, nan⟩
  | invTriple =>
    refine ⟨_, rfl, ?_⟩
    rcases combineThree_cases sl.s2 sl.s1 sl.s0 with ⟨d, b, a, h2, h1, h0, sum⟩ | ⟨missing, nan⟩
    · refine .inl ⟨a, b, d, h0, h1, h2, ?_⟩
      rw [show a + b * 1000 + d * 1000000 = d * 1000000 + b * 1000 + a by ring]
      exact sum
    · exact .inr ⟨by tauto, nan⟩
  | _ => exact absurd rfl multi

/-- A stored word that completes a finite combination publishes it (R205). -/
theorem takeWord_of_fin {w : Watcher} {ix v : Word16} {ph : Phase} {q : Rat}
    (h : (w.storeWord ix v ph).slots.combine w.config.encoding = some (.fin q)) :
    w.takeWord ix v ph =
      ({ w.storeWord ix v ph with lastPublished := some (.fin q) }, some (.fin q)) := by
  simp only [Watcher.takeWord, Watcher.storeWord_config, h]

/-- A stored word that leaves the combination NaN publishes nothing (R205). -/
theorem takeWord_of_nan {w : Watcher} {ix v : Word16} {ph : Phase}
    (h : (w.storeWord ix v ph).slots.combine w.config.encoding = some .nan) :
    w.takeWord ix v ph = (w.storeWord ix v ph, none) := by
  simp only [Watcher.takeWord, h]

/-- Settles O46: the word goes to the slot of its offset, and the combination decides what is
published. -/
theorem multiWordWatchersStoreAndCombine : Obligations.MultiWordWatchersStoreAndCombine := by
  intro s c x y p rest reg i w k next legal confirm found enabled offset multi id index word
  obtain ⟨new, ph, published, after, own⟩ := receiveFrame_watcher found c s.draws confirm
  have matched : w.matchesFrame c (decodeFrame p).rindex = true :=
    (matchesFrame_iff w c _).mpr ⟨id, by omega, by omega⟩
  rw [onFrame_multi enabled matched multi] at after own
  have slots : (w.storeWord (decodeFrame p).rindex (decodeFrame p).rvalue ph).slots =
      w.slots.put k word := by
    have distance : (decodeFrame p).rindex.toNat - w.config.elsterIndex.toNat = k := by omega
    rw [Watcher.storeWord, distance]
  obtain ⟨combined, combines, formula⟩ := combine_isCombination multi (w.slots.put k word)
  rw [← slots] at combines
  have put0 (zero : k = 0) : w.slots.put k word = ⟨word, w.slots.s1, w.slots.s2⟩ := by rw [zero]; rfl
  have put1 (one : k = 1) : w.slots.put k word = ⟨w.slots.s0, word, w.slots.s2⟩ := by rw [one]; rfl
  have put2 (two : k = 2) : w.slots.put k word = ⟨w.slots.s0, w.slots.s1, word⟩ := by rw [two]; rfl
  cases combined with
  | fin q =>
    rw [takeWord_of_fin combines] at after own
    refine ⟨_, new, _, .fin q, step_receive next legal, published, after, rfl, rfl,
      fun h => slots.trans (put0 h), fun h => slots.trans (put1 h), fun h => slots.trans (put2 h), ?_,
      fun q' same => ?_, fun nan => Eng.noConfusion nan⟩
    · rw [slots]; exact formula
    · cases same
      exact ⟨rfl, own⟩
  | nan =>
    rw [takeWord_of_nan combines] at after own
    refine ⟨_, new, _, .nan, step_receive next legal, published, after, rfl, rfl,
      fun h => slots.trans (put0 h), fun h => slots.trans (put1 h), fun h => slots.trans (put2 h), ?_,
      fun q same => Eng.noConfusion same, fun _ => ⟨rfl, own⟩⟩
    rw [slots]; exact formula

/-! ### Polls (R197, R198) -/

/-- The requests of one cycle as R69 prints them. -/
theorem readRequests_eq (c : CanId) (cfg : WatcherConfig) :
    readRequests c cfg = (List.range (wordsOf cfg.encoding)).map fun k =>
      ⟨c, extendedBytes (idLayout cfg.target.numericAddress .read) (wordIndex cfg.elsterIndex k) 0⟩ := by
  rw [readRequests, wordCount_eq_wordsOf]
  exact List.map_congr_left fun k _ => buildRd_toFrame c _ _

theorem readRequests_length (c : CanId) (cfg : WatcherConfig) :
    (readRequests c cfg).length = wordsOf cfg.encoding := by
  rw [readRequests, List.length_map, List.length_range, wordCount_eq_wordsOf]

/-- Everything a poll of an enabled watcher does. -/
theorem poll_enabled {e : Env} {r : WatcherRef} {w : Watcher} (h : e.watcher? r = some w)
    (enabled : w.failed = false) :
    (e.beginReadCycle r).queue = e.queue ++ readRequests e.senderId w.config ∧
    (e.beginReadCycle r).watcher? r = some w.restart ∧
    (∀ r', r' ≠ r → (e.beginReadCycle r).watcher? r' = e.watcher? r') ∧
    (e.beginReadCycle r).published = e.published ∧ (e.beginReadCycle r).sent = e.sent ∧
    (e.beginReadCycle r).senderId = e.senderId := by
  have watchers (e' : Env) (q : List CanFrame) (r' : WatcherRef) :
      ({ e' with queue := q } : Env).watcher? r' = e'.watcher? r' := by
    obtain ⟨reg, position⟩ := r'
    cases reg <;> rfl
  rw [beginReadCycle_of_enabled h enabled]
  refine ⟨rfl, ?_, fun r' other => ?_, modifyWatcher_published e r _, modifyWatcher_sent e r _,
    modifyWatcher_senderId e r _⟩
  · rw [watchers, modifyWatcher_watcher?_self, h]; rfl
  · rw [watchers, modifyWatcher_watcher?_of_ne e r _ other]

/-- Settles O48. -/
theorem pollEnqueuesOneReadPerWord : Obligations.PollEnqueuesOneReadPerWord := by
  intro s r rest w next found enabled inside
  obtain ⟨queue, own, others, published, sent, -⟩ := poll_enabled found enabled
  refine ⟨_, w.restart, step_poll next, ?_, own, rfl, fun multi => ?_, rfl, published, sent, others⟩
  · rw [State.moved_env, queue, readRequests_eq]
    congr 1
    apply List.map_congr_left
    intro k below
    have index : wordIndex w.config.elsterIndex k = BitVec.ofNat 16 (w.config.elsterIndex.toNat + k) :=
      if_pos (by have := List.mem_range.mp below; omega)
    rw [index]
  · rw [← wordCount_eq_wordsOf] at multi
    exact if_neg multi

/-- Settles O49: the second poll finds the watcher restarted, with the same configuration. -/
theorem pollingTwiceResetsTwice : Obligations.PollingTwiceResetsTwice := by
  intro s r rest w next found enabled
  obtain ⟨queue₁, own₁, -, published₁, -, sender₁⟩ := poll_enabled found enabled
  obtain ⟨queue₂, own₂, -, published₂, -, -⟩ := poll_enabled own₁ enabled
  refine ⟨_, _, w.restart, w.restart.restart, readRequests s.env.senderId w.config, step_poll next,
    step_poll rfl, own₁, rfl, own₂, rfl, readRequests_length _ _, ?_, published₂.trans published₁⟩
  rw [queue₁, sender₁] at queue₂
  exact queue₂

/-! ### Ticks (R208) -/

/-- Settles O50. -/
theorem tickDrainsOneFrame : Obligations.TickDrainsOneFrame := by
  intro s ok rest next
  refine ⟨_, step_tick next, fun empty => ?_, fun f q queued => ?_⟩
  · rw [State.moved_env, Env.drain, empty]
  · rw [State.moved_env, Env.drain, queued]; rfl

/-- A run whose first step is answered goes on from the next state. -/
theorem run_succ {s t : State} (h : step s = .next t) (n : Nat) :
    Host.Core.run Sys2Proof.core (n + 1) s = Host.Core.run Sys2Proof.core n t := by
  have first : Sys2Proof.core.step s = .next t := h
  simp only [Host.Core.run, first]

/-- Settles O51, by induction on the frames at the front of the queue. -/
theorem queueIsFirstInFirstOut : Obligations.QueueIsFirstInFirstOut := by
  intro s frames
  induction frames generalizing s with
  | nil =>
    intro more rest queued next
    refine ⟨s, rfl, next, ?_⟩
    rw [List.map_nil, List.append_nil, ← show s.env.queue = more from queued]
  | cons f frames ih =>
    intro more rest queued next
    obtain ⟨t, answer, -, drained⟩ := tickDrainsOneFrame s f.2 _ next
    have first := drained f.1 _ queued
    have inputs : t.inputs = frames.map (fun f => .tick f.2) ++ rest := by
      rw [step_tick next] at answer
      cases answer
      rfl
    obtain ⟨u, ran, left, sent⟩ := ih t more rest (by rw [first]; rfl) inputs
    refine ⟨u, (run_succ answer _).trans ran, left, ?_⟩
    rw [sent, first]
    simp

/-! ### Control (R206, R209) -/

theorem controlWatcher_of_enabled {e : Env} {k : Nat} {w : Watcher} (h : e.writable[k]? = some w)
    (enabled : w.failed = false) (q : Rat) (ok : Bool) (n : Nat) :
    e.controlWatcher k q ok n = { e with
      sent := e.sent ++ [⟨⟨e.senderId, extendedBytes (idLayout w.config.target.numericAddress .write)
        w.config.elsterIndex (encodedOr n (vEnc w.config.encoding (.fin q)))⟩, false, ok⟩]
      timers := e.timers ++ [⟨e.settleDelayMs, ⟨.writable, k⟩⟩] } := by
  rw [Env.controlWatcher, h]
  simp [Watcher.enabled, enabled, buildWr, encodeWrite, buildFrame_toFrame, writeId_eq_idLayout,
    Env.send]

theorem controlWatcher_of_failed {e : Env} {k : Nat} {w : Watcher} (h : e.writable[k]? = some w)
    (failed : w.failed = true) (q : Rat) (ok : Bool) (n : Nat) : e.controlWatcher k q ok n = e := by
  rw [Env.controlWatcher, h]
  simp [Watcher.enabled, failed]

/-- Settles O52. -/
theorem controlSendsPastTheQueue : Obligations.ControlSendsPastTheQueue := by
  intro s i q ok rest w next found enabled
  refine ⟨_, encodedOr s.draws (vEnc w.config.encoding (.fin q)), step_control next,
    fun v' encoded => ?_, controlWatcher_of_enabled found enabled q ok s.draws⟩
  rw [encoded, encodedOr_some]

/-! ### Timers (R206, R211) -/

/-- Beginning a read cycle neither reads nor changes the timers. -/
theorem beginReadCycle_withTimers (e : Env) (r : WatcherRef) (ts : List OneShot) :
    ({ e with timers := ts } : Env).beginReadCycle r = { e.beginReadCycle r with timers := ts } := by
  obtain ⟨reg, position⟩ := r
  cases reg <;>
  · simp only [Env.beginReadCycle, Env.watcher?, Env.registry, Env.modifyWatcher]
    split
    · rfl
    · split <;> rfl

/-- Settles O53. -/
theorem timerBeginsAReadCycle : Obligations.TimerBeginsAReadCycle := by
  intro s p u k o rest next pending polled same answer
  rw [step_poll polled] at answer
  cases answer
  refine ⟨_, step_timerFires next, ?_⟩
  rw [State.moved_env, State.moved_env, Env.fireTimer, pending, same]
  exact beginReadCycle_withTimers s.env o.watcher _

/-- Settles O54. -/
theorem cancelledTimerIsRemoved : Obligations.CancelledTimerIsRemoved :=
  fun _ _ _ next => ⟨_, step_timerCancelled next, rfl⟩

/-! ### Disabled watchers (R207) -/

/-- A read cycle of any watcher leaves a failed one as it is. -/
theorem beginReadCycle_watcher?_of_failed {e : Env} {r : WatcherRef} {w : Watcher}
    (h : e.watcher? r = some w) (failed : w.failed = true) (r' : WatcherRef) :
    (e.beginReadCycle r').watcher? r = some w := by
  rcases beginReadCycle_cases e r' with same | ⟨w', found, enabled, -⟩
  · rw [same]; exact h
  · obtain ⟨-, -, others, -, -, -⟩ := poll_enabled found enabled
    rw [others r, h]
    rintro rfl
    rw [h, Option.some.injEq] at found
    rw [found, enabled] at failed
    cases failed

/-- No move changes a failed watcher. -/
theorem EnvMove.watcher?_of_failed {e e' : Env} (move : EnvMove e e') {r : WatcherRef} {w : Watcher}
    (h : e.watcher? r = some w) (failed : w.failed = true) : e'.watcher? r = some w := by
  cases move with
  | stay => exact h
  | receive c p n =>
    rcases receiveFrame_watcher?_cases e c p n r with same | ⟨ph, offered⟩
    · rw [same]; exact h
    · rw [offered, h, Option.map_some, onFrame_of_outside (.inl failed)]
  | tick ok =>
    rcases drain_cases e ok with ⟨-, same⟩ | ⟨f, q, -, drained⟩
    · rw [same]; exact h
    · rw [drained, ← h]
      obtain ⟨reg, position⟩ := r
      cases reg <;> rfl
  | timerFires k =>
    rcases fireTimer_cases e k with same | ⟨o, -, fired⟩
    · rw [same]; exact h
    · have cancelled : (e.cancelTimer k).watcher? r = some w := by
        obtain ⟨reg, position⟩ := r
        cases reg <;> exact h
      rw [fired]
      exact beginReadCycle_watcher?_of_failed cancelled failed o.watcher
  | timerCancelled k =>
    obtain ⟨reg, position⟩ := r
    cases reg <;> exact h
  | poll r' => exact beginReadCycle_watcher?_of_failed h failed r'
  | control k q ok n =>
    rcases controlWatcher_cases e k q ok n with same | ⟨w', -, -, sent⟩
    · rw [same]; exact h
    · rw [sent, ← h]
      obtain ⟨reg, position⟩ := r
      cases reg <;> rfl

/-- Settles O55. -/
theorem disabledWatchersAreInert : Obligations.DisabledWatchersAreInert := by
  refine ⟨fun c => ⟨rfl, ?_⟩, fun s t r w found failed answer => ⟨?_, ?_, ?_⟩⟩
  · have marked : (Watcher.start .writable c).failed = isMultiWordKind c.encoding := rfl
    rw [marked]
    cases c.encoding <;> decide
  · exact (step_envMove answer).watcher?_of_failed found failed
  · intro rest next
    rw [step_poll next] at answer
    cases answer
    exact beginReadCycle_of_failed found failed
  · rintro i q ok rest rfl next
    rw [step_control next] at answer
    cases answer
    exact controlWatcher_of_failed found failed q ok s.draws

end Sys2Proof.Machine
end
